-- ==== Sys2Proof/Word.lean ====
section
/-! DEFINITION. The two widths of the block: bytes and 16-bit words (spec/00_scope.md R8). -/
namespace Sys2Proof

/-- A byte, 8 bits (R8): the unit of both byte spaces (20_memory R41). -/
abbrev Byte := BitVec 8

/-- A word, 16 bits (R8): a checksum word, RESULT, ACC, ID, SEQNO, an EtherType code. -/
abbrev Word := BitVec 16

end Sys2Proof
end

