-- ==== Sys2Proof/Syntax.lean ====
section
/-! DEFINITION. The commands as data (spec/30_encoding.md R67, `Cmd`), one constructor per row of spec/opcode_table.json. -/
namespace Sys2Proof

/-- A MAC address: a string of exactly 6 bytes, first byte first (10_state R21; "MAC fields are always exactly 6 bytes"). -/
structure Mac where
  b0 : Byte
  b1 : Byte
  b2 : Byte
  b3 : Byte
  b4 : Byte
  b5 : Byte
  deriving DecidableEq, Repr

/-- An IPv4 address: a string of exactly 4 bytes, first byte first (10_state R21). -/
structure Ip where
  b0 : Byte
  b1 : Byte
  b2 : Byte
  b3 : Byte
  deriving DecidableEq, Repr

/-- The recognised EtherType names, exactly three (30_encoding R74, 90_conflicts C1). -/
inductive EtherName where
  | ipv4
  | ipv6
  | arp
  deriving DecidableEq, Repr

/-- The four opcodes (30_encoding R60); their byte values are in Decode.lean. -/
inductive Opcode where
  | csum
  | eth
  | arpreq
  | icmpreq
  deriving DecidableEq, Repr

/-- The four error codes a command can end with (60_exceptions R141 to R144). -/
inductive ErrCode where
  /-- UnsupportedEtherType: ETH with an unrecognised ETSEL (R141). -/
  | errEtype
  /-- The first descriptor byte is no opcode (R142). -/
  | errOpcode
  /-- The descriptor is empty, too short, or (ARPREQ) too long (R143). -/
  | errFormat
  /-- The payload of ETH or ICMPREQ is longer than PAYLOAD_MAX (R144). -/
  | errLength
  deriving DecidableEq, Repr

/-- The command set (00_scope R10): what R67 calls `Cmd`, with the operands of 10_state R21. -/
inductive Instr where
  /-- CSUM: the checksum of `data` (40_checksum R100). -/
  | csum (data : List Byte)
  /-- ETH: an Ethernet frame (41_ethernet R110). -/
  | eth (dmac smac : Mac) (name : EtherName) (payload : List Byte)
  /-- ARPREQ: an ARP request (42_arp R120). -/
  | arpreq (lmac : Mac) (lip tip : Ip)
  /-- ICMPREQ: an ICMP echo request with its checksum (43_icmp R130). -/
  | icmpreq (id seqno : Word) (payload : List Byte)
  deriving DecidableEq, Repr

end Sys2Proof
end

