-- ==== Sys2Proof/Config.lean ====
section
/-! DEFINITION. The configuration of an instance (spec/00_scope.md R5, 10_state R32): five parameters the spec leaves OPEN. -/
namespace Sys2Proof

/-- ETYPE_CODE: the 2-byte code of each recognised EtherType name (R5, 30_encoding R74). -/
structure EtypeCodes where
  ipv4 : Word
  ipv6 : Word
  arp  : Word
  deriving DecidableEq, Repr, Inhabited

/-- The configuration record of 10_state R32; constant for the life of an instance, an argument of every rule. -/
structure Config where
  /-- PREAMBLE, of length PRE_LEN >= 0. -/
  preamble   : List Byte
  /-- ETYPE_CODE. -/
  etypeCodes : EtypeCodes
  /-- ARP_HTYPE. -/
  arpHtype   : Word
  /-- ARP_PTYPE. -/
  arpPtype   : Word
  /-- PAYLOAD_MAX: the most payload bytes ETH and ICMPREQ accept. -/
  payloadMax : Nat
  deriving DecidableEq, Repr, Inhabited

/-- The configuration of the instance that comes out of reset. R5 leaves all of it OPEN, so it has no body here
and nothing can be proved about its values (DESIGN CHOICE, log 2: safe). -/
opaque Config.chip : Config

/-- R5's defaults and suggested preamble, "from general knowledge, not in source"; PAYLOAD_MAX has no default and
is an argument. The machine does not use it; it names the configurations of spec/95_test_vectors.md. -/
def Config.suggested (payloadMax : Nat) : Config where
  preamble   := [0x55, 0x55, 0x55, 0x55, 0x55, 0x55, 0x55, 0xD5]
  etypeCodes := { ipv4 := 0x0800, ipv6 := 0x86DD, arp := 0x0806 }
  arpHtype   := 0x0001
  arpPtype   := 0x0800
  payloadMax := payloadMax

end Sys2Proof
end

