-- ==== Sys2Proof/Machine/Operands.lean ====
section
/-! DEFINITION. Byte order and operand forms (spec/20_memory.md R42 to R44, spec/30_encoding.md R66, R74). -/
namespace Sys2Proof

/-- `u16(h, l)`: the word `h * 256 + l` (00_scope R8). -/
def u16 (h l : Byte) : Word := BitVec.ofNat 16 (h.toNat * 256 + l.toNat)

/-- `be16(w)`: the two bytes `[w[15:8], w[7:0]]`, most significant first (00_scope R8). -/
def be16 (w : Word) : List Byte := [w.extractLsb' 8 8, w.extractLsb' 0 8]

/-- `zeros(n)`: n bytes of 0x00 (00_scope R8). -/
def zeros (n : Nat) : List Byte := List.replicate n 0x00

/-- `MemRead(addr, n)`: n bytes of the descriptor from byte offset `addr` (00_scope R9, 20_memory R40). -/
def memRead (d : List Byte) (addr n : Nat) : List Byte := (d.drop addr).take n

/-- One byte of the descriptor. The decoder reads only offsets it has checked to lie inside (44_other_classes R181),
so the value past the end is never used. -/
def byteAt (d : List Byte) (addr : Nat) : Byte := d.getD addr 0

/-- `MemRead16(addr) = u16(D[addr], D[addr+1])`: operands are most significant byte first (20_memory R44). -/
def memRead16 (d : List Byte) (addr : Nat) : Word := u16 (byteAt d addr) (byteAt d (addr + 1))

/-- The 6-byte operand at `addr` (DMAC, SMAC, LMAC), in descriptor order (R66). -/
def macAt (d : List Byte) (addr : Nat) : Mac where
  b0 := byteAt d addr
  b1 := byteAt d (addr + 1)
  b2 := byteAt d (addr + 2)
  b3 := byteAt d (addr + 3)
  b4 := byteAt d (addr + 4)
  b5 := byteAt d (addr + 5)

/-- The 4-byte operand at `addr` (LIP, TIP), in descriptor order (R66). -/
def ipAt (d : List Byte) (addr : Nat) : Ip where
  b0 := byteAt d addr
  b1 := byteAt d (addr + 1)
  b2 := byteAt d (addr + 2)
  b3 := byteAt d (addr + 3)

/-- A MAC as the byte string it is (20_memory R43: "copied in the order given, first byte first"). -/
def Mac.bytes (m : Mac) : List Byte := [m.b0, m.b1, m.b2, m.b3, m.b4, m.b5]

/-- An IPv4 address as the byte string it is (20_memory R43). -/
def Ip.bytes (a : Ip) : List Byte := [a.b0, a.b1, a.b2, a.b3]

/-- ETSEL of a recognised name (30_encoding R63). -/
def EtherName.sel : EtherName → Byte
  | .ipv4 => 0x00
  | .ipv6 => 0x01
  | .arp  => 0x02

/-- The name an ETSEL selects; 0x03 to 0xFF are unrecognised (30_encoding R63, R69). -/
def EtherName.ofSel (sel : Byte) : Option EtherName :=
  if sel = 0x00 then some .ipv4
  else if sel = 0x01 then some .ipv6
  else if sel = 0x02 then some .arp
  else none

/-- `ETYPE_CODE[name]` (30_encoding R74). -/
def Config.etypeCode (cfg : Config) : EtherName → Word
  | .ipv4 => cfg.etypeCodes.ipv4
  | .ipv6 => cfg.etypeCodes.ipv6
  | .arp  => cfg.etypeCodes.arp

/-- PRE_LEN (00_scope R5). -/
def Config.preLen (cfg : Config) : Nat := cfg.preamble.length

/-- OUT_MAX, the largest output (00_scope R5, 10_state R20). -/
def Config.outMax (cfg : Config) : Nat :=
  max (max (cfg.preLen + 14 + cfg.payloadMax) (8 + cfg.payloadMax)) 28

/-- The capacity DBUF needs (10_state R31). -/
def Config.dbufCapacity (cfg : Config) : Nat := max (14 + cfg.payloadMax) 15

end Sys2Proof
end

