-- ==== Sys2Proof/WellFormed.lean ====
section
/-! DEFINITION. The one check on a command as data: its payload fits PAYLOAD_MAX (spec/30_encoding.md R67, R69). -/
namespace Sys2Proof

/-- A command is well formed under a configuration when some descriptor decodes to it: the payload of ETH and ICMPREQ
holds at most PAYLOAD_MAX bytes (R60, R67 step 4). Every other operand value is legal (R69), and CSUM is unbounded (R100). -/
def Instr.wellFormed (cfg : Config) : Instr → Bool
  | .csum _            => true
  | .eth _ _ _ payload => payload.length ≤ cfg.payloadMax
  | .arpreq _ _ _      => true
  | .icmpreq _ _ payload => payload.length ≤ cfg.payloadMax

end Sys2Proof
end

