-- ==== Sys2Proof/Decode.lean ====
section
/-! DEFINITION. The total decoder of spec/30_encoding.md R67, then the encoder of R62 to R65, then the host's view of table words. -/
namespace Sys2Proof

/-- The opcode byte D[0] of each command (R60, R70). -/
def Opcode.byte : Opcode → Byte
  | .csum    => 0x01
  | .eth     => 0x02
  | .arpreq  => 0x03
  | .icmpreq => 0x04

/-- The command a first byte selects; 0x00 and 0x05 to 0xFF select none (R68). -/
def Opcode.ofByte (b : Byte) : Option Opcode :=
  if b = 0x01 then some .csum
  else if b = 0x02 then some .eth
  else if b = 0x03 then some .arpreq
  else if b = 0x04 then some .icmpreq
  else none

/-- F, the number of fixed operand bytes (R60). -/
def Opcode.fixedBytes : Opcode → Nat
  | .csum    => 0
  | .eth     => 13
  | .arpreq  => 14
  | .icmpreq => 4

/-- The commands whose payload PAYLOAD_MAX bounds (R60, R67 step 4). -/
def Opcode.bounded : Opcode → Bool
  | .csum    => false
  | .eth     => true
  | .arpreq  => false
  | .icmpreq => true

/-- P, the payload of a descriptor of command `op`: every byte after the fixed operands (R61, R67 step 4). -/
def payloadOf (op : Opcode) (d : List Byte) : List Byte := d.drop (1 + op.fixedBytes)

/-- Steps 5 and 6 of R67: the command of a descriptor whose lengths have been checked. -/
def decodeFields (op : Opcode) (d : List Byte) : Except ErrCode Instr :=
  match op with
  | .csum => .ok (.csum (payloadOf .csum d))
  | .eth =>
    match EtherName.ofSel (byteAt d 13) with
    | none => .error .errEtype
    | some name => .ok (.eth (macAt d 1) (macAt d 7) name (payloadOf .eth d))
  | .arpreq => .ok (.arpreq (macAt d 1) (ipAt d 7) (ipAt d 11))
  | .icmpreq => .ok (.icmpreq (memRead16 d 1) (memRead16 d 3) (payloadOf .icmpreq d))

/-- The decoder of R67: total, its tests in R67's order, the first that fails decides (R148). -/
def decode (cfg : Config) (d : List Byte) : Except ErrCode Instr :=
  match d with
  | [] => .error .errFormat                                                  -- step 1
  | first :: operands =>
    match Opcode.ofByte first with
    | none => .error .errOpcode                                              -- step 2
    | some op =>
      if operands.length < op.fixedBytes then .error .errFormat              -- step 3
      else if op = .arpreq ∧ 14 < operands.length then .error .errFormat
      else if op.bounded ∧ cfg.payloadMax < (payloadOf op d).length then
        .error .errLength                                                    -- step 4
      else decodeFields op d                                                 -- steps 5 and 6

/-! ### The encoder -/

/-- The descriptor of a command, from the layouts of R62 (CSUM), R63 (ETH), R64 (ARPREQ), R65 (ICMPREQ). -/
def encode : Instr → List Byte
  | .csum data => 0x01 :: data
  | .eth dmac smac name payload => 0x02 :: (dmac.bytes ++ smac.bytes ++ [name.sel] ++ payload)
  | .arpreq lmac lip tip => 0x03 :: (lmac.bytes ++ lip.bytes ++ tip.bytes)
  | .icmpreq id seqno payload => 0x04 :: (be16 id ++ be16 seqno ++ payload)

/-! ### Table words: a descriptor as one number, bit 0 the least significant bit of its first byte -/

/-- The first `n` bytes of a number, least significant first. -/
def bytesOf : Nat → Nat → List Byte
  | 0, _ => []
  | n + 1, w => BitVec.ofNat 8 w :: bytesOf n (w / 256)

/-- The shortest legal length of a descriptor that begins with this byte (R60); 1 for an illegal opcode. -/
def shortestLength (first : Byte) : Nat :=
  match Opcode.ofByte first with
  | none => 1
  | some op => 1 + op.fixedBytes

/-- Zero bytes up to the shortest legal length for the first byte. -/
def padToLegal : List Byte → List Byte
  | [] => []
  | first :: rest => first :: (rest ++ zeros (shortestLength first - (rest.length + 1)))

/-- The descriptor a table word stands for: its `nbits` bits as bytes, then operand bytes of zero up to the shortest
legal descriptor of its opcode (DESIGN CHOICE, log 11: a descriptor's end is marked by the transport, R61, and a
table word has no such mark). -/
def tableDescriptor (nbits w : Nat) : List Byte := padToLegal (bytesOf ((nbits + 7) / 8) (w % 2 ^ nbits))

/-- What the decoder reads from a table word (none where it rejects it), under the open configuration. -/
def decodeTableWord (nbits w : Nat) : Option Instr :=
  match decode Config.chip (tableDescriptor nbits w) with
  | .ok i => some i
  | .error _ => none

end Sys2Proof
end

