-- ==== Sys2Proof/Machine/Checksum.lean ====
section
/-! DEFINITION. The checksum function (spec/40_checksum.md R90 to R93) and CE's end-around-carry addition (R94). -/
namespace Sys2Proof

/-- The words of a byte sequence: big-endian pairs from its first byte, an odd last byte being a high byte with a low
byte of 0x00 (R90, 20_memory R42, R47). -/
def words : List Byte → List Word
  | [] => []
  | [h] => [u16 h 0x00]
  | h :: l :: rest => u16 h l :: words rest

/-- The raw sum S(B), an unbounded natural number (R91). -/
def rawSum (bs : List Byte) : Nat := ((words bs).map BitVec.toNat).sum

/-- `fuel` passes of R92's loop at most. -/
def foldPasses : Nat → Nat → Nat
  | 0, s => s
  | fuel + 1, s => if s > 0xFFFF then foldPasses fuel (s % 65536 + s / 65536) else s

/-- `fold(S)` (R92). Each pass makes S smaller, so S passes are always enough. -/
def fold (s : Nat) : Nat := foldPasses s s

/-- `checksum(B) = ~fold(S(B))` (R93). -/
def checksum (bs : List Byte) : Word := ~~~ (BitVec.ofNat 16 (fold (rawSum bs)))

/-- `eac_add(a, v)`: 16-bit addition with the carry out of bit 15 added back at bit 0 (R94). -/
def eacAdd (a v : Word) : Word :=
  let t := a.toNat + v.toNat
  if t ≤ 0xFFFF then BitVec.ofNat 16 t else BitVec.ofNat 16 (t - 0xFFFF)

end Sys2Proof
end

