-- ==== Sys2Proof/Machine/State.lean ====
section
/-! DEFINITION. The state (spec/10_state.md R20), the host's actions (R35), the reasons a step can stop, and reset (R36). -/
namespace Sys2Proof.Machine

/-- SEQ (R22): ready to take a descriptor, or running a command. -/
inductive Seq where
  | idle
  | busy
  deriving DecidableEq, Repr

/-- The outcome a command reports in STATUS.CODE: exactly five values (R27). -/
inductive Code where
  | ok
  | errEtype
  | errOpcode
  | errFormat
  | errLength
  deriving DecidableEq, Repr

/-- What the host may do next: the three actions of R35, `read` in two grains, and the reset of R161. -/
inductive HostAction where
  /-- `issue(D)` (R35 a): hand the block the whole descriptor D; it runs as one atomic step. -/
  | issue (d : List Byte)
  /-- `read` (R35 b): observe STATUS, RESULT, OLEN and OBUF[0..OLEN-1]. -/
  | read
  /-- `read` of one byte, OBUF[i] (R30); no value is defined at or beyond OLEN (R171; log 8). -/
  | readObuf (i : Nat)
  /-- `reset` between commands (R35 c, R160). -/
  | reset
  /-- `reset` while a descriptor is partly transferred or its command runs (R161): `taken` are the bytes taken so far
  (DEDUCED, log 9). -/
  | resetMidCommand (taken : List Byte)
  deriving DecidableEq, Repr

/-- The response registers as the host reads them (R35 b). -/
structure Response where
  status : BitVec 8
  result : Word
  olen   : Nat
  obuf   : List Byte
  deriving DecidableEq, Repr

/-- What one read action returned. -/
inductive Observation where
  | response (r : Response)
  | obufByte (i : Nat) (b : Byte)
  deriving DecidableEq, Repr

/-- The state a step maps: R7's (configuration, block state, descriptor), the descriptors still to come being in
`script`. `status` to `seq` are the block (R20); OLEN is the length of `obuf` (R20, R30). -/
structure State where
  /-- STATUS (R26): CODE 3:0, CV 4, DONE 5, bits 7:6 reserved. -/
  status  : BitVec 8
  /-- RESULT (R28). -/
  result  : Word
  /-- OBUF (R30), exactly OLEN bytes. -/
  obuf    : List Byte
  /-- ACC (R23), hidden. -/
  acc     : Word
  /-- ODD (R24), hidden. -/
  odd     : Bool
  /-- DBUF (R31): the descriptor in hand. -/
  dbuf    : List Byte
  /-- SEQ (R22). -/
  seq     : Seq
  /-- The configuration (R32), an argument carried along and changed by nothing (log 2). -/
  config  : Config
  /-- MODEL's own: the host actions still to be taken, first one first (R35, R172; log 1). -/
  script  : List HostAction
  /-- MODEL's own: what the host's reads have returned, oldest first (R53; log 7). -/
  hostSaw : List Observation
  deriving DecidableEq, Repr

/-- Reasons the machine stops with a fault: there is none. "An error of the block is a result value, not a trap and not
a fault that stops anything" (60_exceptions R140). -/
inductive Fault where
  deriving DecidableEq, Repr

/-- Reasons the model gives a step no meaning. -/
inductive Refusal where
  /-- Raised by an arm of `exec` for a command that has no meaning yet; no arm raises it now. Safe: the run stops. -/
  | notModelled (mnemonic : String)
  /-- Raised by the host action `readObuf i` when i is OLEN or more: "A read of OBUF at or beyond OLEN is refused by
  the model (no value)" (70_reset_and_hazards R171). Safe: the run stops. -/
  | obufBeyondOlen (i olen : Nat)
  deriving DecidableEq, Repr

/-- The state right after reset (R36), nothing issued yet. The configuration is not affected by reset (R36) and is
the open constant `Config.chip`; the host's script is empty (log 3). -/
def State.reset : State where
  status  := 0x00
  result  := 0x0000
  obuf    := []
  acc     := 0x0000
  odd     := false
  dbuf    := []
  seq     := .idle
  config  := Config.chip
  script  := []
  hostSaw := []

end Sys2Proof.Machine
end

