-- ==== Sys2Proof/Machine/Flags.lean ====
section
/-! DEFINITION. STATUS and its fields (spec/10_state.md R26, R27). -/
namespace Sys2Proof.Machine

/-- The number of each CODE (R27). -/
def Code.bits : Code → BitVec 4
  | .ok        => 0
  | .errEtype  => 1
  | .errOpcode => 2
  | .errFormat => 3
  | .errLength => 4

/-- The CODE with a given number; 5 to 15 are never produced (R27). -/
def Code.ofBits (b : BitVec 4) : Option Code :=
  if b = 0 then some .ok
  else if b = 1 then some .errEtype
  else if b = 2 then some .errOpcode
  else if b = 3 then some .errFormat
  else if b = 4 then some .errLength
  else none

/-- The CODE of an error (R149). -/
def codeOfErr : ErrCode → Code
  | .errEtype  => .errEtype
  | .errOpcode => .errOpcode
  | .errFormat => .errFormat
  | .errLength => .errLength

/-- STATUS put together from its fields: bits 7:6 zero, DONE 5, CV 4, CODE 3:0 (R26). -/
def statusWord (done cv : Bool) (code : Code) : BitVec 8 :=
  0#2 ++ BitVec.ofBool done ++ BitVec.ofBool cv ++ code.bits

/-- STATUS.CODE, bits 3:0. -/
def State.codeField (s : State) : BitVec 4 := s.status.extractLsb' 0 4

/-- STATUS.CODE as one of its five values. -/
def State.code (s : State) : Option Code := Code.ofBits s.codeField

/-- STATUS.CV, bit 4: RESULT holds a checksum of the last completed command. -/
def State.cv (s : State) : Bool := s.status.getLsbD 4

/-- STATUS.DONE, bit 5: a command has completed since reset. -/
def State.done (s : State) : Bool := s.status.getLsbD 5

/-- STATUS bits 7:6, reserved, read as 0. -/
def State.reservedField (s : State) : BitVec 2 := s.status.extractLsb' 6 2

end Sys2Proof.Machine
end

