-- ==== Sys2Proof/Machine/Ops.lean ====
section
/-! DEFINITION. The named operations on the state: output buffer, CE, the end of a command, errors, reset, reads. -/
namespace Sys2Proof.Machine

/-! ### The output buffer (spec/00_scope.md R9, 20_memory R40) -/

/-- OLEN (10_state R29, R30). -/
def State.olen (s : State) : Nat := s.obuf.length

/-- `OLEN <- 0; OBUF <- empty`: each command replaces the whole buffer (R30). -/
def State.clearOutput (s : State) : State := { s with obuf := [] }

/-- `emit(v)`: append v at offset OLEN (R9). -/
def State.emit (s : State) (v : List Byte) : State := { s with obuf := s.obuf ++ v }

/-- Bytes `v` over the bytes of `buf` from offset `addr`; the length stays. -/
def overwrite : List Byte → Nat → List Byte → List Byte
  | buf, _, [] => buf
  | buf, addr, b :: v => overwrite (buf.set addr b) (addr + 1) v

/-- `MemWrite(addr, n, v)`: write v into OBUF at byte offset addr (R9). -/
def State.memWrite (s : State) (addr : Nat) (v : List Byte) : State := { s with obuf := overwrite s.obuf addr v }

/-! ### CE (spec/40_checksum.md R95, R96) -/

/-- `clear`. -/
def State.clear (s : State) : State := { s with acc := 0x0000, odd := false }

/-- `absorb(b)`: a high byte when ODD = 0, a low byte when ODD = 1 (R95). -/
def State.absorb (s : State) (b : Byte) : State :=
  if s.odd then { s with acc := eacAdd s.acc (u16 0x00 b), odd := false }
  else { s with acc := eacAdd s.acc (u16 b 0x00), odd := true }

/-- `absorb` of each byte in offset order (R96). -/
def State.absorbAll (s : State) (bs : List Byte) : State := bs.foldl State.absorb s

/-- `finish`: ~ACC, changing nothing (R96). -/
def State.finish (s : State) : Word := ~~~ s.acc

/-! ### The start and the end of a command (spec/10_state.md R22, R26 to R30) -/

/-- A descriptor is in hand: DBUF holds it and SEQ goes to BUSY (R22, R31). -/
def State.takeDescriptor (s : State) (d : List Byte) : State := { s with dbuf := d, seq := .busy }

/-- The end of every command: the response registers take their values, SEQ goes to IDLE (R22), and the descriptor is
gone (R20; log 5). -/
def State.respond (s : State) (cv : Bool) (code : Code) (result : Word) : State :=
  { s with status := statusWord true cv code, result := result, seq := .idle, dbuf := [] }

/-- A command that ends OK without a checksum: `RESULT <- 0x0000; STATUS <- 0x20`. -/
def State.respondPlain (s : State) : State := s.respond false .ok 0x0000

/-- A command that ends OK with a checksum: `RESULT <- c; STATUS <- 0x30`. -/
def State.respondChecksum (s : State) (c : Word) : State := s.respond true .ok c

/-- `fail(code)` (60_exceptions R149), the block's one "exception entry": no output, RESULT 0, the error in STATUS,
and nothing saved. There is no return from it and nothing to restore (R150): the next command just runs. -/
def State.fail (s : State) (e : ErrCode) : State := s.clearOutput.respond false (codeOfErr e) 0x0000

/-! ### The host's other actions (spec/10_state.md R35) -/

/-- The reset action (70_reset_and_hazards R160): every piece of the block's state takes its value of R36; the
configuration is not state and stays (R32), and so do the host's own script and notes. -/
def State.resetAction (s : State) : State :=
  { State.reset with config := s.config, script := s.script, hostSaw := s.hostSaw }

/-- What `read` returns: STATUS, RESULT, OLEN and OBUF[0..OLEN-1] (R35 b). -/
def State.response (s : State) : Response :=
  { status := s.status, result := s.result, olen := s.olen, obuf := s.obuf }

/-- OBUF[i], for i below OLEN only (R30). -/
def State.obufByte (s : State) (i : Nat) : Option Byte := s.obuf[i]?

/-- The host notes what a read returned; nothing of the block changes (20_memory R50). -/
def State.observe (s : State) (o : Observation) : State := { s with hostSaw := s.hostSaw ++ [o] }

/-- The block is ready for a descriptor (10_state R22). -/
def State.ready (s : State) : Bool := s.seq = .idle

/-- RESULT as a checksum, if it is one: "STATUS.CV to decide whether RESULT is a checksum" (70_reset_and_hazards R167). -/
def State.checksumRead (s : State) : Option Word := if s.cv then some s.result else none

end Sys2Proof.Machine
end

