-- ==== Sys2Proof/Machine/Arp.lean ====
section
/-! DEFINITION. The ARPREQ command (spec/42_arp.md R120). -/
namespace Sys2Proof.Machine

/-- The request of R120's pseudocode, emitted field by field; ACC and ODD are not touched. -/
def State.emitArpRequest (s : State) (lmac : Mac) (lip tip : Ip) : State :=
  ((((((((s.clearOutput.emit (be16 s.config.arpHtype)).emit (be16 s.config.arpPtype)).emit [0x06]).emit [0x04]).emit
    [0x00, 0x01]).emit lmac.bytes).emit lip.bytes).emit (zeros 6)).emit tip.bytes

/-- ARPREQ (R120): the 28-byte request; every operand value is legal. -/
def execArpreq (lmac : Mac) (lip tip : Ip) (s : State) : Host.Outcome State Fault Refusal :=
  .next (s.emitArpRequest lmac lip tip).respondPlain

end Sys2Proof.Machine
end

