-- ==== Sys2Proof/Machine/Csum.lean ====
section
/-! DEFINITION. The CSUM command (spec/40_checksum.md R100). -/
namespace Sys2Proof.Machine

/-- CSUM (R100): `clear`, `absorb` each byte of DATA, `RESULT <- ~ACC`, no output. It cannot fail (60_exceptions R145). -/
def execCsum (data : List Byte) (s : State) : Host.Outcome State Fault Refusal :=
  let summed := s.clear.absorbAll data
  .next (summed.clearOutput.respondChecksum summed.finish)

end Sys2Proof.Machine
end

