-- ==== Sys2Proof/Machine/Ethernet.lean ====
section
/-! DEFINITION. The ETH command (spec/41_ethernet.md R110). -/
namespace Sys2Proof.Machine

/-- The frame of R110's pseudocode, emitted field by field; ACC and ODD are not touched. -/
def State.emitFrame (s : State) (dmac smac : Mac) (name : EtherName) (payload : List Byte) : State :=
  ((((s.clearOutput.emit s.config.preamble).emit dmac.bytes).emit smac.bytes).emit
    (be16 (s.config.etypeCode name))).emit payload

/-- ETH (R110). A payload over PAYLOAD_MAX is ERR_LENGTH (60_exceptions R144); a descriptor that has one is already
turned away by the decoder (log 10). -/
def execEth (dmac smac : Mac) (name : EtherName) (payload : List Byte) (s : State) :
    Host.Outcome State Fault Refusal :=
  if s.config.payloadMax < payload.length then .next (s.fail .errLength)
  else .next (s.emitFrame dmac smac name payload).respondPlain

end Sys2Proof.Machine
end

