-- ==== Sys2Proof/Machine/Icmp.lean ====
section
/-! DEFINITION. The ICMPREQ command (spec/43_icmp.md R130). -/
namespace Sys2Proof.Machine

/-- M0 of R130: the message with `00 00` in the checksum field. -/
def State.emitEchoRequest (s : State) (id seqno : Word) (payload : List Byte) : State :=
  (((((s.clearOutput.emit [0x08]).emit [0x00]).emit [0x00, 0x00]).emit (be16 id)).emit (be16 seqno)).emit payload

/-- The rest of R130: sum the whole of OBUF, and write the checksum into bytes 2 and 3, high byte first (R132, R133). -/
def State.fillChecksum (s : State) : State :=
  let summed := s.clear.absorbAll s.obuf
  (summed.memWrite 2 (be16 summed.finish)).respondChecksum summed.finish

/-- ICMPREQ (R130). A payload over PAYLOAD_MAX is ERR_LENGTH (60_exceptions R144); a descriptor that has one is
already turned away by the decoder (log 10). -/
def execIcmpreq (id seqno : Word) (payload : List Byte) (s : State) : Host.Outcome State Fault Refusal :=
  if s.config.payloadMax < payload.length then .next (s.fail .errLength)
  else .next (s.emitEchoRequest id seqno payload).fillChecksum

end Sys2Proof.Machine
end

