-- ==== Sys2Proof/Machine/Dispatch.lean ====
section
/-! DEFINITION. One arm per command (spec/30_encoding.md R70: the complete table). -/
namespace Sys2Proof.Machine

def exec (i : Instr) (s : State) : Host.Outcome State Fault Refusal :=
  match i with
  | .csum data => Sys2Proof.Machine.execCsum data s
  | .eth dmac smac name payload => Sys2Proof.Machine.execEth dmac smac name payload s
  | .arpreq lmac lip tip => Sys2Proof.Machine.execArpreq lmac lip tip s
  | .icmpreq id seqno payload => Sys2Proof.Machine.execIcmpreq id seqno payload s

end Sys2Proof.Machine
end

