-- ==== Sys2Proof/Machine/HostActions.lean ====
section
/-! DEFINITION. What each host action does (spec/10_state.md R35, spec/70_reset_and_hazards.md R160, R161, R171). -/
namespace Sys2Proof.Machine

/-- `issue(D)`: take the descriptor, decode it, and run the command or answer the error (30_encoding R67, R149), as
one atomic step (00_scope R7). -/
def State.issue (s : State) (d : List Byte) : Host.Outcome State Fault Refusal :=
  match decode s.config d with
  | .ok i => exec i (s.takeDescriptor d)
  | .error e => .next ((s.takeDescriptor d).fail e)

/-- `read` of one byte: refused at or beyond OLEN (R171). -/
def State.readObuf (s : State) (i : Nat) : Host.Outcome State Fault Refusal :=
  match s.obufByte i with
  | some b => .next (s.observe (.obufByte i b))
  | none => .refused (.obufBeyondOlen i s.olen)

/-- A reset while the bytes `taken` of a descriptor have been taken (R161): "no response is produced for it, the bytes
already taken are discarded, and the state is the reset state". -/
def State.abandon (s : State) (taken : List Byte) : State := (s.takeDescriptor taken).resetAction

/-- One host action. -/
def State.act (s : State) : HostAction → Host.Outcome State Fault Refusal
  | .issue d => s.issue d
  | .read => .next (s.observe (.response s.response))
  | .readObuf i => s.readObuf i
  | .reset => .next s.resetAction
  | .resetMidCommand taken => .next (s.abandon taken)

end Sys2Proof.Machine
end

