-- ==== Sys2Proof/Machine/Step.lean ====
section
/-! DEFINITION. One step: the host's next action (spec/10_state.md R35, spec/70_reset_and_hazards.md R172). -/
namespace Sys2Proof.Machine

/-- One step takes the first action of the host's script. With no action left the run has ended (R172) and the block
waits in IDLE, unchanged: it "never ends a run by itself and has no halt" (DESIGN CHOICE, log 4). -/
def step (s : State) : Host.Outcome State Fault Refusal :=
  match s.script with
  | [] => .next s
  | a :: rest => State.act { s with script := rest } a

/-- `s` with the descriptor of a table word as the host's next action, so that the next step runs it. -/
def State.withFetchWord (s : State) (nbits w : Nat) : State :=
  { s with script := .issue (tableDescriptor nbits w) :: s.script }

end Sys2Proof.Machine
end

