-- ==== Sys2Proof/Machine/Assembler.lean ====
section
/-! DEFINITION. The assembler syntax (spec/30_encoding.md R80 to R84): a tool of the host, not a part of the block. -/
namespace Sys2Proof.Machine

/-- Why a line does not assemble; "no descriptor is produced and nothing is issued" (R82). -/
inductive AsmError where
  /-- An address operand does not convert (R82). -/
  | invalidAddress
  /-- Anything else the syntax of R80 to R84 does not allow. -/
  | malformed
  deriving DecidableEq, Repr

/-- What an EXPECT directive checks (R84). -/
inductive Expectation where
  | status (n : Nat)
  | result (n : Nat)
  | olen (n : Nat)
  | obuf (bs : List Byte)
  deriving DecidableEq, Repr

/-- A line assembled (R80, R84). -/
inductive AsmLine where
  /-- Only blanks or a comment. -/
  | blank
  /-- A command: one descriptor, one `issue`. -/
  | command (d : List Byte)
  /-- The pseudo-instruction VERIFY: the CSUM descriptor, then the host's test. -/
  | verify (d : List Byte)
  /-- The RESET directive. -/
  | reset
  /-- The EXPECT directive. -/
  | expect (e : Expectation)
  deriving DecidableEq, Repr

/-! ### Characters and numbers -/

/-- The value of a hexadecimal digit of either case (R82). -/
def hexDigit (c : Char) : Option Nat :=
  if '0' ≤ c ∧ c ≤ '9' then some (c.toNat - '0'.toNat)
  else if 'a' ≤ c ∧ c ≤ 'f' then some (c.toNat - 'a'.toNat + 10)
  else if 'A' ≤ c ∧ c ≤ 'F' then some (c.toNat - 'A'.toNat + 10)
  else none

/-- The value of a decimal digit. -/
def decDigit (c : Char) : Option Nat := if '0' ≤ c ∧ c ≤ '9' then some (c.toNat - '0'.toNat) else none

/-- The number a run of digits writes, most significant first, starting from `n`. -/
def digitsFrom (digit : Char → Option Nat) (base : Nat) : Nat → List Char → Option Nat
  | n, [] => some n
  | n, c :: cs =>
    match digit c with
    | none => none
    | some v => digitsFrom digit base (n * base + v) cs

/-- A non-empty run of decimal digits, leading zeros and all (DESIGN CHOICE, log 12). -/
def decimalOf (cs : List Char) : Option Nat := if cs = [] then none else digitsFrom decDigit 10 0 cs

/-- A decimal number, or `0x` and up to four hexadecimal digits (R81). -/
def numberOf : List Char → Option Nat
  | '0' :: 'x' :: ds => if ds = [] ∨ 4 < ds.length then none else digitsFrom hexDigit 16 0 ds
  | cs => decimalOf cs

/-- `<u16>` (R81). -/
def u16Of (cs : List Char) : Option Word :=
  match numberOf cs with
  | some n => if n ≤ 65535 then some (BitVec.ofNat 16 n) else none
  | none => none

/-! ### Pieces of a line -/

/-- Blanks between the parts of a line. -/
def isBlank (c : Char) : Bool := c = ' ' || c = '\t'

/-- The text without its leading and trailing blanks. -/
def trim (cs : List Char) : List Char := ((cs.dropWhile isBlank).reverse.dropWhile isBlank).reverse

/-- The character put in front of the first piece. -/
def onFirst (c : Char) : List (List Char) → List (List Char)
  | [] => [[c]]
  | piece :: pieces => (c :: piece) :: pieces

/-- The pieces of a text between separators that stand outside double quotes (DESIGN CHOICE, log 12). -/
def splitUnquoted (sep : Char) : Bool → List Char → List (List Char)
  | _, [] => [[]]
  | quoted, c :: cs =>
    if c = '"' then onFirst c (splitUnquoted sep (!quoted) cs)
    else if c = sep ∧ quoted = false then [] :: splitUnquoted sep quoted cs
    else onFirst c (splitUnquoted sep quoted cs)

/-- The line without its comment: "text after `;` is a comment" (R80). -/
def stripComment (cs : List Char) : List Char := (splitUnquoted ';' false cs).headD []

/-- `keyword=value` at the first equals sign (R80), with any blanks around it (DESIGN CHOICE, log 12). -/
def operandOf (cs : List Char) : Option (List Char × List Char) :=
  match cs.dropWhile (· ≠ '=') with
  | [] => none
  | _ :: value => some (trim (cs.takeWhile (· ≠ '=')), trim value)

/-- The operands of a line, `keyword=value` pairs separated by commas (R80). -/
def operandsOf (cs : List Char) : Option (List (List Char × List Char)) :=
  if trim cs = [] then some [] else (splitUnquoted ',' false cs).mapM operandOf

/-! ### Operand values -/

/-- Pairs of hexadecimal digits with no separator. -/
def hexPairs : List Char → Option (List Byte)
  | [] => some []
  | [_] => none
  | h :: l :: rest =>
    match hexDigit h, hexDigit l, hexPairs rest with
    | some hv, some lv, some bs => some (BitVec.ofNat 8 (hv * 16 + lv) :: bs)
    | _, _, _ => none

/-- `<mac>`: 12 hexadecimal digits of either case, no separator, in text order (R82). -/
def macOf (cs : List Char) : Option Mac :=
  match hexPairs cs with
  | some [b0, b1, b2, b3, b4, b5] => some ⟨b0, b1, b2, b3, b4, b5⟩
  | _ => none

/-- One octet of a dotted-decimal address: 0 to 255; no leading zeros (the narrowest reading, log 12). -/
def octetOf (cs : List Char) : Option Byte :=
  if cs.length > 1 ∧ cs.head? = some '0' then none
  else
    match decimalOf cs with
    | some n => if n ≤ 255 then some (BitVec.ofNat 8 n) else none
    | none => none

/-- `<ip>`: a dotted-decimal IPv4 literal (R82). -/
def ipOf (cs : List Char) : Option Ip :=
  match (splitUnquoted '.' false cs).mapM octetOf with
  | some [b0, b1, b2, b3] => some ⟨b0, b1, b2, b3⟩
  | _ => none

/-- The characters of a double-quoted ASCII string after its opening quote: one byte each, no terminator (R83). -/
def quotedOf : List Char → Option (List Byte)
  | [] => none
  | ['"'] => some []
  | c :: cs =>
    if c = '"' ∨ 127 < c.toNat then none
    else
      match quotedOf cs with
      | some bs => some (BitVec.ofNat 8 c.toNat :: bs)
      | none => none

/-- A byte written as one hexadecimal pair. -/
def bytePairOf : List Char → Option Byte
  | [h, l] =>
    match hexDigit h, hexDigit l with
    | some hv, some lv => some (BitVec.ofNat 8 (hv * 16 + lv))
    | _, _ => none
  | _ => none

/-- `<bytes>` (R83): hexadecimal pairs separated by spaces, a quoted string, or the OLEN bytes `obuf` the host has
read from OBUF. -/
def bytesOfText (obuf : List Byte) (cs : List Char) : Option (List Byte) :=
  match cs with
  | '"' :: rest => quotedOf rest
  | _ =>
    if cs = "OBUF".toList then some obuf
    else ((splitUnquoted ' ' false cs).filter (· ≠ [])).mapM bytePairOf

/-- The selector of `type=` (R81): a name, or `#k` for the raw selector k. -/
def etselOf (cs : List Char) : Option Byte :=
  if cs = "IPV4".toList then some EtherName.ipv4.sel
  else if cs = "IPV6".toList then some EtherName.ipv6.sel
  else if cs = "ARP".toList then some EtherName.arp.sel
  else
    match cs with
    | '#' :: ds =>
      match decimalOf ds with
      | some k => if k ≤ 255 then some (BitVec.ofNat 8 k) else none
      | none => none
    | _ => none

/-! ### Lines -/

/-- The value of a keyword. -/
def valueOf (ops : List (List Char × List Char)) (key : String) : Option (List Char) :=
  match ops.find? (fun p => p.1 = key.toList) with
  | some p => some p.2
  | none => none

/-- Every keyword is one of `keys` and none comes twice. -/
def keysFit (ops : List (List Char × List Char)) (keys : List String) : Bool :=
  ops.all (fun p => (keys.map String.toList).contains p.1) && decide (ops.map Prod.fst).Nodup

/-- An address operand: absent is malformed, unreadable is InvalidAddress (R80, R82). -/
def addressOf {α : Type} (conv : List Char → Option α) (ops : List (List Char × List Char)) (key : String) :
    Except AsmError α :=
  match valueOf ops key with
  | none => .error .malformed
  | some v =>
    match conv v with
    | some a => .ok a
    | none => .error .invalidAddress

/-- A required operand that is no address. -/
def requiredOf {α : Type} (conv : List Char → Option α) (ops : List (List Char × List Char)) (key : String) :
    Except AsmError α :=
  match valueOf ops key with
  | none => .error .malformed
  | some v =>
    match conv v with
    | some a => .ok a
    | none => .error .malformed

/-- `payload` or `data`, which defaults to empty (R80). -/
def dataOf (obuf : List Byte) (ops : List (List Char × List Char)) (key : String) : Except AsmError (List Byte) :=
  match valueOf ops key with
  | none => .ok []
  | some v =>
    match bytesOfText obuf v with
    | some bs => .ok bs
    | none => .error .malformed

/-- The CSUM line. -/
def asmCsum (obuf : List Byte) (ops : List (List Char × List Char)) : Except AsmError (List Byte) :=
  if keysFit ops ["data"] then do
    let data ← dataOf obuf ops "data"
    .ok (Opcode.csum.byte :: data)
  else .error .malformed

/-- The ETH line; the selector is written raw, so that an unrecognised one can be (R81). -/
def asmEth (obuf : List Byte) (ops : List (List Char × List Char)) : Except AsmError (List Byte) :=
  if keysFit ops ["dst", "src", "type", "payload"] then do
    let dst ← addressOf macOf ops "dst"
    let src ← addressOf macOf ops "src"
    let sel ← requiredOf etselOf ops "type"
    let payload ← dataOf obuf ops "payload"
    .ok (Opcode.eth.byte :: (dst.bytes ++ src.bytes ++ [sel] ++ payload))
  else .error .malformed

/-- The ARPREQ line. -/
def asmArpreq (ops : List (List Char × List Char)) : Except AsmError (List Byte) :=
  if keysFit ops ["lmac", "lip", "tip"] then do
    let lmac ← addressOf macOf ops "lmac"
    let lip ← addressOf ipOf ops "lip"
    let tip ← addressOf ipOf ops "tip"
    .ok (Opcode.arpreq.byte :: (lmac.bytes ++ lip.bytes ++ tip.bytes))
  else .error .malformed

/-- The ICMPREQ line. -/
def asmIcmpreq (obuf : List Byte) (ops : List (List Char × List Char)) : Except AsmError (List Byte) :=
  if keysFit ops ["id", "seq", "payload"] then do
    let id ← requiredOf u16Of ops "id"
    let seqno ← requiredOf u16Of ops "seq"
    let payload ← dataOf obuf ops "payload"
    .ok (Opcode.icmpreq.byte :: (be16 id ++ be16 seqno ++ payload))
  else .error .malformed

/-- The EXPECT directive: one register or OBUF, and its value (R84). -/
def asmExpect (obuf : List Byte) (ops : List (List Char × List Char)) : Except AsmError Expectation :=
  match ops with
  | [(key, v)] =>
    if key = "OBUF".toList then
      match bytesOfText obuf v with
      | some bs => .ok (.obuf bs)
      | none => .error .malformed
    else
      match numberOf v with
      | none => .error .malformed
      | some n =>
        if key = "STATUS".toList then .ok (.status n)
        else if key = "RESULT".toList then .ok (.result n)
        else if key = "OLEN".toList then .ok (.olen n)
        else .error .malformed
  | _ => .error .malformed

/-- One line assembled (R80, R81, R84); `obuf` is what the host last read from OBUF (R83). -/
def assemble (obuf : List Byte) (line : List Char) : Except AsmError AsmLine :=
  let body := trim (stripComment line)
  let mnemonic := body.takeWhile (fun c => !isBlank c)
  match operandsOf (body.dropWhile (fun c => !isBlank c)) with
  | none => .error .malformed
  | some ops =>
    if mnemonic = [] then .ok .blank
    else if mnemonic = "CSUM".toList then (asmCsum obuf ops).map .command
    else if mnemonic = "ETH".toList then (asmEth obuf ops).map .command
    else if mnemonic = "ARPREQ".toList then (asmArpreq ops).map .command
    else if mnemonic = "ICMPREQ".toList then (asmIcmpreq obuf ops).map .command
    else if mnemonic = "VERIFY".toList then (asmCsum obuf ops).map .verify
    else if mnemonic = "RESET".toList then if ops = [] then .ok .reset else .error .malformed
    else if mnemonic = "EXPECT".toList then (asmExpect obuf ops).map .expect
    else .error .malformed

/-! ### Running lines -/

/-- The host actions of a line (R84: EXPECT "issues nothing"). -/
def AsmLine.actions : AsmLine → List HostAction
  | .blank => []
  | .command d => [.issue d]
  | .verify d => [.issue d, .read]
  | .reset => [.reset]
  | .expect _ => [.read]

/-- Whether the response has what EXPECT names (R84). -/
def Expectation.holds (r : Response) : Expectation → Bool
  | .status n => r.status.toNat = n
  | .result n => r.result.toNat = n
  | .olen n => r.olen = n
  | .obuf bs => r.obuf = bs

/-- Whether the line's test passes on the response after it: VERIFY's is `RESULT = 0x0000` (R84). -/
def AsmLine.passes (r : Response) : AsmLine → Bool
  | .blank => true
  | .command _ => true
  | .verify _ => r.result = 0x0000
  | .reset => true
  | .expect e => e.holds r

/-- How a line of a program ends. -/
inductive LineEnd where
  | done (s : State) (passed : Bool)
  | notAssembled (e : AsmError)
  | stopped (r : Refusal)
  deriving DecidableEq, Repr

/-- One line of a program: assembled with the OBUF the host reads now, its actions run, its test made. -/
def runLine (s : State) (line : List Char) : LineEnd :=
  match assemble s.obuf line with
  | .error e => .notAssembled e
  | .ok l =>
    match Sys2Proof.core.run l.actions.length { s with script := l.actions ++ s.script } with
    | .next t => .done t (l.passes (State.response t))
    | .fault f => nomatch f
    | .refused r => .stopped r

/-- A program, "a sequence of lines" (R80), up to its end or the first line that does not assemble, pass or run. R80 to
R84 do not say whether a program goes on after such a line; that it ends there is the model's (DESIGN CHOICE, log 18). -/
def runProgram (s : State) : List (List Char) → LineEnd
  | [] => .done s true
  | line :: rest =>
    match runLine s line with
    | .done t true => runProgram t rest
    | .done t false => .done t false
    | .notAssembled e => .notAssembled e
    | .stopped r => .stopped r

end Sys2Proof.Machine
end

