-- ==== Sys2Proof/Safety.lean ====
section
/-! DEFINITION. What counts as a safe run (spec/70_reset_and_hazards.md R171), and what every state between commands satisfies. -/
namespace Sys2Proof.Machine

/-- The host contract of R171 for one action: only a read of OBUF at or beyond OLEN is outside it. -/
def State.allows (s : State) : HostAction → Bool
  | .readObuf i => i < s.olen
  | .issue _ => true
  | .read => true
  | .reset => true
  | .resetMidCommand _ => true

/-- The host keeps the contract in its next action. -/
def State.hostKeepsContract (s : State) : Bool :=
  match s.script with
  | [] => true
  | a :: _ => s.allows a

/-- The only STATUS values a host can ever read (10_state R27). -/
def legalStatus : List (BitVec 8) := [0x00, 0x20, 0x30, 0x21, 0x22, 0x23, 0x24]

/-- The STATUS values of a failing command (60_exceptions R149). -/
def errorStatus : List (BitVec 8) := [0x21, 0x22, 0x23, 0x24]

/-- What holds of the block between commands. -/
structure State.Consistent (s : State) : Prop where
  /-- SEQ is IDLE and no descriptor is in hand (10_state R22, R20). -/
  idle : s.seq = .idle ∧ s.dbuf = []
  /-- STATUS is one of seven values (10_state R27). -/
  status_legal : s.status ∈ legalStatus
  /-- OLEN is at most OUT_MAX (10_state R20). -/
  olen_bounded : s.olen ≤ s.config.outMax
  /-- No command has completed: everything is as reset left it (10_state R36). -/
  fresh : s.done = false → s.result = 0x0000 ∧ s.obuf = [] ∧ s.acc = 0x0000 ∧ s.odd = false
  /-- Without CV, RESULT is 0x0000 (10_state R28). -/
  no_checksum : s.cv = false → s.result = 0x0000
  /-- With CV, RESULT is the complement of what CE holds (40_checksum R100, 43_icmp R130). -/
  checksum_is_ce : s.cv = true → s.result = ~~~ s.acc
  /-- With CV, there is no output (CSUM), or the output is a message that verifies and holds RESULT in bytes 2 and 3
  (43_icmp R133, 10_state R28). -/
  checksum_output : s.cv = true →
    s.obuf = [] ∨ (8 ≤ s.olen ∧ checksum s.obuf = 0x0000 ∧ memRead16 s.obuf 2 = s.result)
  /-- After a failing command nothing is readable (60_exceptions R149). -/
  error_empty : s.status ∈ errorStatus → s.obuf = []
  /-- After a command that ended OK without a checksum, a frame or a request is readable (10_state R29). -/
  plain_output : s.status = 0x20 → 14 ≤ s.olen

end Sys2Proof.Machine
end

