-- ==== Sys2Proof/Certificates/Slice0/Obligations.lean ====
section
/-! DEFINITION. The statements for the provers, from the rules of spec/. A state carries its configuration (log 2), so a
statement about every state is about every configuration; `issue(D)`, `read` and `reset` are written as the head of the
host's script (log 1). What DBUF holds after a command is left open in every statement of a command's result (log 5). -/

open Sys2Proof Sys2Proof.Machine

/-! ### Reset and the host's reads -/

/-- R36 and R160: the values after reset, for the state `State.reset` and for the host's reset action on any state. -/
def Obligations.ResetGivesEveryRegisterItsValue : Prop :=
  ∀ (s : State) (rest : List HostAction), s.script = .reset :: rest →
    ∃ t : State, step s = .next t ∧ t.config = s.config ∧ t.script = rest ∧ t.hostSaw = s.hostSaw ∧
      t.ready = true ∧
      ∀ u : State, u = t ∨ u = State.reset →
        u.status = 0x00 ∧ u.code = some .ok ∧ u.cv = false ∧ u.done = false ∧ u.reservedField = 0 ∧
        u.result = 0x0000 ∧ u.olen = 0 ∧ u.obuf = [] ∧ u.acc = 0x0000 ∧ u.odd = false ∧ u.dbuf = [] ∧ u.seq = .idle

/-- R161, its second sentence: a reset in mid-command leaves what a reset between commands leaves, whatever bytes had
been taken, and the host sees no response. That this is one host action is the model's choice (log 9). -/
def Obligations.ResetInMidCommandIsAReset : Prop :=
  ∀ (s : State) (taken : List Byte) (rest : List HostAction), s.script = .resetMidCommand taken :: rest →
    ∃ t : State, step s = .next t ∧ step { s with script := .reset :: rest } = .next t ∧
      t.response = { status := 0x00, result := 0x0000, olen := 0, obuf := [] } ∧ t.dbuf = [] ∧ t.seq = .idle ∧
      t.hostSaw = s.hostSaw

/-- R53, R50: a read returns the response as the last command left it, and changes nothing of the block, whatever the
host does next; a second read returns the same. Where the host's observations are kept is the model's choice (log 7). -/
def Obligations.ReadReturnsTheResponseAndChangesNothing : Prop :=
  ∀ (s : State) (rest : List HostAction), s.script = .read :: rest →
    s.response = { status := s.status, result := s.result, olen := s.obuf.length, obuf := s.obuf } ∧
    ∃ t : State, step s = .next t ∧
      t = { s with script := rest, hostSaw := s.hostSaw ++ [.response s.response] } ∧
      ∀ rest' : List HostAction, rest = .read :: rest' →
        ∃ u : State, step t = .next u ∧
          u = { s with script := rest', hostSaw := s.hostSaw ++ [.response s.response, .response s.response] }

/-- R30, R171: byte i of OBUF can be read exactly when i is below OLEN; the read changes nothing of the block, and a
read at or beyond OLEN is refused. The byte-wise read as an action is the model's choice (log 8). -/
def Obligations.ObufIsReadableExactlyBelowOlen : Prop :=
  ∀ (s : State) (i : Nat) (rest : List HostAction), s.script = .readObuf i :: rest →
    (∀ h : i < s.obuf.length,
      step s = .next { s with script := rest, hostSaw := s.hostSaw ++ [.obufByte i s.obuf[i]] }) ∧
    (s.obuf.length ≤ i → step s = .refused (.obufBeyondOlen i s.obuf.length))

/-- With no host action left the block waits, unchanged (log 4, the model's choice; R172: "the block never ends a run
by itself and has no halt"). -/
def Obligations.BlockWaitsWhenTheHostIsDone : Prop :=
  ∀ s : State, s.script = [] → step s = .next s

/-! ### Decoding -/

/-- R67, last sentence: decode of a command's descriptor gives it back, provided its payload fits PAYLOAD_MAX. -/
def Obligations.DecodeOfEncodeGivesTheCommandBack : Prop :=
  ∀ (cfg : Config) (i : Instr), i.wellFormed cfg = true → decode cfg (encode i) = .ok i

/-- R67, last sentence: every command has exactly one descriptor; what decodes to it is what it encodes to. -/
def Obligations.DecodeAcceptsOnlyTheDescriptorOfTheCommand : Prop :=
  ∀ (cfg : Config) (d : List Byte) (i : Instr), decode cfg d = .ok i → encode i = d ∧ i.wellFormed cfg = true

/-- Descriptors written out byte by byte from R62 to R65 (95_test_vectors S6, S7, V-C13, V-E13) decode to their
commands. The last two clauses are about table words: that a table word, which has no end mark, is read as a whole
descriptor, so that 0x01 is a CSUM of no bytes, is the model's choice (log 11). -/
def Obligations.WrittenOutDescriptorsDecode : Prop :=
  ∀ cfg : Config, 4 ≤ cfg.payloadMax →
    decode cfg [0x01, 0x12, 0x34, 0x56] = .ok (.csum [0x12, 0x34, 0x56]) ∧
    decode cfg [0x02, 0xFF, 0xFF, 0xFF, 0xFF, 0xFF, 0xFF, 0xAA, 0xBB, 0xCC, 0xDD, 0xEE, 0xFF, 0x02] =
      .ok (.eth ⟨0xFF, 0xFF, 0xFF, 0xFF, 0xFF, 0xFF⟩ ⟨0xAA, 0xBB, 0xCC, 0xDD, 0xEE, 0xFF⟩ .arp []) ∧
    decode cfg [0x03, 0xAA, 0xBB, 0xCC, 0xDD, 0xEE, 0xFF, 0x0A, 0x00, 0x00, 0x01, 0x0A, 0x00, 0x00, 0x02] =
      .ok (.arpreq ⟨0xAA, 0xBB, 0xCC, 0xDD, 0xEE, 0xFF⟩ ⟨10, 0, 0, 1⟩ ⟨10, 0, 0, 2⟩) ∧
    decode cfg [0x04, 0x00, 0x01, 0x00, 0x01, 0x70, 0x69, 0x6E, 0x67] =
      .ok (.icmpreq 1 1 [0x70, 0x69, 0x6E, 0x67]) ∧
    decodeTableWord 8 0x01 = some (.csum []) ∧ decodeTableWord 8 0x05 = none

/-- R148: a command reports exactly one CODE, that of the first failing test in the order empty, opcode, too short (or
ARPREQ too long), payload too long, ETSEL unrecognised; and OK when none fails. -/
def Obligations.FirstFailingTestGivesTheCode : Prop :=
  ∀ (s : State) (d : List Byte) (rest : List HostAction), s.script = .issue d :: rest →
    let op := (byteAt d 0).toNat
    ∃ t : State, step s = .next t ∧ t.code = some (
      if d = [] then .errFormat
      else if op < 1 ∨ 4 < op then .errOpcode
      else if (op = 2 ∧ d.length < 14) ∨ (op = 3 ∧ d.length ≠ 15) ∨ (op = 4 ∧ d.length < 5) then .errFormat
      else if (op = 2 ∧ s.config.payloadMax < d.length - 14) ∨ (op = 4 ∧ s.config.payloadMax < d.length - 5) then
        .errLength
      else if op = 2 ∧ 3 ≤ (byteAt d 13).toNat then .errEtype
      else .ok)

/-- R141 to R144: when each of the four errors is raised, that it is raised then only, and that nothing but the code
is recorded. -/
def Obligations.EachErrorIsRaisedExactlyWhenItsRuleSays : Prop :=
  ∀ (s : State) (d : List Byte) (rest : List HostAction), s.script = .issue d :: rest →
    let op := (byteAt d 0).toNat
    ∃ t : State, step s = .next t ∧
      (t.code = some .errEtype ↔
        op = 2 ∧ 14 ≤ d.length ∧ d.length - 14 ≤ s.config.payloadMax ∧ 3 ≤ (byteAt d 13).toNat) ∧
      (t.code = some .errOpcode ↔ d ≠ [] ∧ (op = 0 ∨ 5 ≤ op)) ∧
      (t.code = some .errFormat ↔
        d = [] ∨ (op = 2 ∧ d.length < 14) ∨ (op = 3 ∧ d.length ≠ 15) ∨ (op = 4 ∧ d.length < 5)) ∧
      (t.code = some .errLength ↔
        (op = 2 ∧ s.config.payloadMax < d.length - 14) ∨ (op = 4 ∧ s.config.payloadMax < d.length - 5)) ∧
      (t.code ≠ some .ok → t = { s with
        script := rest, status := t.status, result := 0x0000, obuf := [], seq := .idle, dbuf := t.dbuf })

/-- R145: every descriptor whose first byte is 0x01 ends with CODE = OK, and its data is every byte after the first. -/
def Obligations.CsumNeverFails : Prop :=
  ∀ (s : State) (data : List Byte) (rest : List HostAction), s.script = .issue (0x01 :: data) :: rest →
    ∃ t : State, step s = .next t ∧ t.code = some .ok ∧ t.result = checksum data

/-- R31: no descriptor of ETH, ARPREQ or ICMPREQ that is accepted is longer than DBUF's capacity, and for each
configuration some accepted one is just as long. -/
def Obligations.DbufCapacityIsEnoughAndNeeded : Prop :=
  ∀ cfg : Config,
    (∀ (d : List Byte) (i : Instr), decode cfg d = .ok i → byteAt d 0 ≠ 0x01 → d.length ≤ cfg.dbufCapacity) ∧
    ∃ (d : List Byte) (i : Instr), decode cfg d = .ok i ∧ byteAt d 0 ≠ 0x01 ∧ d.length = cfg.dbufCapacity

/-! ### What each command does, from any state -/

/-- R100: CSUM completes from every state; RESULT is the checksum of DATA, OBUF is emptied, STATUS is 0x30, ODD ends as
the length mod 2, ACC holds what RESULT complements, and everything else but SEQ and DBUF stays. Every descriptor that
begins with 0x01 is a CSUM of the bytes after it. The last four clauses are the rule's corner cases. -/
def Obligations.CsumComputesTheChecksum : Prop :=
  ∀ data : List Byte,
    (∀ s : State, ∃ t : State, exec (.csum data) s = .next t ∧
      t = { s with
        result := checksum data, obuf := [], status := 0x30, acc := ~~~ checksum data,
        odd := decide (data.length % 2 = 1), seq := .idle, dbuf := t.dbuf }) ∧
    (∀ (s : State) (rest : List HostAction), s.script = .issue (0x01 :: data) :: rest →
      ∃ t : State, step s = .next t ∧
        t = { s with
          script := rest, result := checksum data, obuf := [], status := 0x30, acc := ~~~ checksum data,
          odd := decide (data.length % 2 = 1), seq := .idle, dbuf := t.dbuf }) ∧
    checksum [] = 0xFFFF ∧ (∀ k, checksum (zeros k) = 0xFFFF) ∧ checksum [0xFF, 0xFF] = 0x0000 ∧
    checksum [0xFF, 0xFF, 0xFF, 0xFF, 0x00, 0x01] = 0xFFFE

/-- R71: the frame ETH builds, byte for byte, and its length; ACC, ODD and everything else but SEQ and DBUF stay. -/
def Obligations.EthBuildsTheFrame : Prop :=
  ∀ (dmac smac : Mac) (name : EtherName) (payload : List Byte) (s : State),
    payload.length ≤ s.config.payloadMax →
    ∃ t : State, exec (.eth dmac smac name payload) s = .next t ∧
      t = { s with
        obuf := s.config.preamble ++ dmac.bytes ++ smac.bytes ++ be16 (s.config.etypeCode name) ++ payload,
        result := 0x0000, status := 0x20, seq := .idle, dbuf := t.dbuf } ∧
      t.olen = s.config.preLen + 14 + payload.length

/-- R72: the 28 bytes ARPREQ builds; ACC, ODD and everything else but SEQ and DBUF stay. -/
def Obligations.ArpreqBuildsTheRequest : Prop :=
  ∀ (lmac : Mac) (lip tip : Ip) (s : State),
    ∃ t : State, exec (.arpreq lmac lip tip) s = .next t ∧
      t = { s with
        obuf := be16 s.config.arpHtype ++ be16 s.config.arpPtype ++ [0x06, 0x04, 0x00, 0x01] ++ lmac.bytes ++
          lip.bytes ++ [0x00, 0x00, 0x00, 0x00, 0x00, 0x00] ++ tip.bytes,
        result := 0x0000, status := 0x20, seq := .idle, dbuf := t.dbuf } ∧
      t.olen = 28

/-- R73, R132: the message ICMPREQ builds, its checksum being that of the whole message with a zero field; RESULT and
STATUS; ODD ends as the payload length mod 2. Everything else but SEQ and DBUF stays. -/
def Obligations.IcmpreqBuildsTheMessage : Prop :=
  ∀ (id seqno : Word) (payload : List Byte) (s : State), payload.length ≤ s.config.payloadMax →
    let c := checksum ([0x08, 0x00, 0x00, 0x00] ++ be16 id ++ be16 seqno ++ payload)
    ∃ t : State, exec (.icmpreq id seqno payload) s = .next t ∧
      t = { s with
        obuf := [0x08, 0x00] ++ be16 c ++ be16 id ++ be16 seqno ++ payload,
        result := c, status := 0x30, acc := ~~~ c, odd := decide (payload.length % 2 = 1),
        seq := .idle, dbuf := t.dbuf } ∧
      t.olen = 8 + payload.length ∧ t.result = checksum (overwrite t.obuf 2 [0x00, 0x00])

/-- R144 for the commands themselves: ETH and ICMPREQ with a payload longer than PAYLOAD_MAX end with ERR_LENGTH and
nothing else. That a command checks again what the decoder has checked is the model's choice (log 10). -/
def Obligations.OversizePayloadIsErrLength : Prop :=
  ∀ (dmac smac : Mac) (name : EtherName) (id seqno : Word) (payload : List Byte) (s : State) (i : Instr),
    s.config.payloadMax < payload.length →
    i = .eth dmac smac name payload ∨ i = .icmpreq id seqno payload →
    ∃ t : State, exec i s = .next t ∧
      t = { s with obuf := [], result := 0x0000, status := 0x24, seq := .idle, dbuf := t.dbuf }

/-- The frame of all four commands: the configuration (R32), the host's script and the host's notes stay. -/
def Obligations.CommandsLeaveConfigurationAndHostAlone : Prop :=
  ∀ (i : Instr) (s : State), ∃ t : State, exec i s = .next t ∧
    t.config = s.config ∧ t.script = s.script ∧ t.hostSaw = s.hostSaw ∧ t.seq = .idle

/-- R25, last sentence: a command that computes no checksum (ETH, ARPREQ, any failing command) leaves ACC and ODD as
they were. -/
def Obligations.OnlyChecksumCommandsTouchTheEngine : Prop :=
  ∀ (s : State) (d : List Byte) (rest : List HostAction), s.script = .issue d :: rest →
    ∃ t : State, step s = .next t ∧ (t.cv = false → t.acc = s.acc ∧ t.odd = s.odd)

/-- `MemWrite(addr, n, v)` (R9): the bytes of v stand at addr and after; every other byte of OBUF, its length and every
other register stay. -/
def Obligations.MemWriteTouchesOnlyItsBytes : Prop :=
  ∀ (s : State) (addr : Nat) (v : List Byte), addr + v.length ≤ s.olen →
    (∀ i, addr ≤ i → i < addr + v.length → (s.memWrite addr v).obufByte i = v[i - addr]?) ∧
    (∀ i, i < addr ∨ addr + v.length ≤ i → (s.memWrite addr v).obufByte i = s.obufByte i) ∧
    s.memWrite addr v = { s with obuf := (s.memWrite addr v).obuf }

/-! ### What each descriptor does (95_test_vectors Part D) -/

/-- Part D 8: for every ETH that ends OK, OBUF is PREAMBLE, D[1..12], the code of the name, D[14..], and OLEN is
PRE_LEN + len(D). -/
def Obligations.EthDescriptorBecomesTheFrame : Prop :=
  ∀ (s : State) (d : List Byte) (name : EtherName) (rest : List HostAction), s.script = .issue d :: rest →
    byteAt d 0 = 0x02 → 14 ≤ d.length → d.length - 14 ≤ s.config.payloadMax → byteAt d 13 = name.sel →
    ∃ t : State, step s = .next t ∧ t.status = 0x20 ∧ t.result = 0x0000 ∧
      t.obuf = s.config.preamble ++ memRead d 1 12 ++ be16 (s.config.etypeCode name) ++ d.drop 14 ∧
      t.olen = s.config.preLen + d.length

/-- R121, and Part D 7: for every ARPREQ that ends OK the length fields are 6 and 4 and fit the addresses written, the
target MAC (bytes 18 to 23) is zero, the operation is 1, OLEN is 28, and each field is where R72 puts it. -/
def Obligations.ArpreqDescriptorBecomesTheRequest : Prop :=
  ∀ (s : State) (d : List Byte) (rest : List HostAction), s.script = .issue d :: rest →
    byteAt d 0 = 0x03 → d.length = 15 →
    ∃ t : State, step s = .next t ∧ t.status = 0x20 ∧ t.result = 0x0000 ∧ t.olen = 28 ∧
      memRead16 t.obuf 0 = s.config.arpHtype ∧ memRead16 t.obuf 2 = s.config.arpPtype ∧
      memRead t.obuf 4 4 = [0x06, 0x04, 0x00, 0x01] ∧
      memRead t.obuf 8 6 = memRead d 1 6 ∧ memRead t.obuf 14 4 = memRead d 7 4 ∧
      memRead t.obuf 18 6 = zeros 6 ∧ memRead t.obuf 24 4 = memRead d 11 4

/-- Part D 6: for every ICMPREQ that ends OK, the message carries D[1..4] and D[5..] unchanged, its checksum verifies
(R133), is RESULT, is the checksum of the message with a zero field (R132), and is never 0xFFFF. -/
def Obligations.IcmpreqDescriptorBecomesAMessageThatVerifies : Prop :=
  ∀ (s : State) (d : List Byte) (rest : List HostAction), s.script = .issue d :: rest →
    byteAt d 0 = 0x04 → 5 ≤ d.length → d.length - 5 ≤ s.config.payloadMax →
    ∃ t : State, step s = .next t ∧ t.status = 0x30 ∧ t.olen = d.length + 3 ∧
      memRead t.obuf 0 2 = [0x08, 0x00] ∧ memRead t.obuf 4 4 = memRead d 1 4 ∧ t.obuf.drop 8 = d.drop 5 ∧
      checksum t.obuf = 0x0000 ∧ t.result = memRead16 t.obuf 2 ∧
      t.result = checksum (overwrite t.obuf 2 [0x00, 0x00]) ∧ t.result ≠ 0xFFFF

/-! ### The step -/

/-- When the next action hands over a descriptor that decodes to i, the step is `exec i` at the state that has the
descriptor in DBUF, SEQ = BUSY (R22) and the action gone from the script. -/
def Obligations.StepRunsTheDecodedCommand : Prop :=
  ∀ (s : State) (d : List Byte) (rest : List HostAction) (i : Instr),
    s.script = .issue d :: rest → decode s.config d = .ok i →
    step s = exec i { s with script := rest, dbuf := d, seq := .busy }

/-- R149: what `fail(code)` does, as the whole of a step whose descriptor the decoder turns away: no output, RESULT
0x0000, STATUS 0x20 + code, SEQ IDLE, and no other effect. -/
def Obligations.FailingDescriptorLeavesOnlyTheErrorResponse : Prop :=
  ∀ (s : State) (d : List Byte) (rest : List HostAction) (e : ErrCode),
    s.script = .issue d :: rest → decode s.config d = .error e →
    ∃ t : State, step s = .next t ∧
      t = { s with
        script := rest, obuf := [], result := 0x0000, seq := .idle, dbuf := t.dbuf,
        status := match e with
          | .errEtype => 0x21
          | .errOpcode => 0x22
          | .errFormat => 0x23
          | .errLength => 0x24 }

/-- R26: after any command DONE is 1, bits 7:6 are 0, CV is 1 exactly for a CSUM or ICMPREQ that ended OK; and STATUS
is one of the values of R27 that a command can leave. -/
def Obligations.StatusFieldsAfterACommand : Prop :=
  ∀ (s : State) (d : List Byte) (rest : List HostAction), s.script = .issue d :: rest →
    ∃ t : State, step s = .next t ∧ t.done = true ∧ t.reservedField = 0 ∧
      (t.cv = true ↔ t.code = some .ok ∧ (byteAt d 0 = 0x01 ∨ byteAt d 0 = 0x04)) ∧
      t.status ∈ [0x20, 0x30, 0x21, 0x22, 0x23, 0x24]

/-- R173, R171: a step goes on exactly when the host keeps its contract; otherwise the host read OBUF at or beyond
OLEN, and the read is refused. Nothing else stops the block. Three of the cases are the model's choice or inference:
with an empty script the step goes on (log 4), the byte-wise read is an action (log 8), and a reset in mid-command is an
action that the contract allows (log 9). -/
def Obligations.StepGoesOnExactlyWithinTheContract : Prop :=
  ∀ s : State,
    (s.hostKeepsContract = true → ∃ t : State, step s = .next t) ∧
    (s.hostKeepsContract = false →
      ∃ (i : Nat) (rest : List HostAction), s.script = .readObuf i :: rest ∧ s.olen ≤ i ∧
        step s = .refused (.obufBeyondOlen i s.olen))

/-- R32: the configuration is constant for the life of an instance. "Every step" includes the model's own: the step with
an empty script (log 4), the byte-wise read (log 8) and the reset in mid-command (log 9). -/
def Obligations.NoStepChangesTheConfiguration : Prop :=
  ∀ s t : State, step s = .next t → t.config = s.config

/-- R7, R162: the response to a descriptor depends on the configuration and the descriptor only, not on anything that
ran before. -/
def Obligations.ResponseDependsOnConfigurationAndDescriptorOnly : Prop :=
  ∀ (s s' : State) (d : List Byte) (rest rest' : List HostAction),
    s.config = s'.config → s.script = .issue d :: rest → s'.script = .issue d :: rest' →
    ∃ t t' : State, step s = .next t ∧ step s' = .next t' ∧ t.response = t'.response

/-- R172: the response at the end of a run depends only on the configuration and the run's last `issue`, or is the
reset response when a reset came after it. The run may hold any host actions, and any reads after that last one; it
answers a next state unless one of its byte-wise reads lies at or beyond OLEN, where it is refused (R171). The byte-wise
read as an action is the model's choice (log 8), and so is taking a reset in mid-command as one action (log 9, deduced). -/
def Obligations.RunEndsInTheResponseOfItsLastCommand : Prop :=
  ∀ (s : State) (before after : List HostAction) (last : HostAction),
    s.script = before ++ last :: after → (∀ a ∈ after, a = .read ∨ ∃ i, a = .readObuf i) →
    let run : Host.Outcome State Fault Refusal :=
      Host.Core.run Sys2Proof.core (before.length + 1 + after.length) s
    let readsTooFar := ∃ i olen : Nat,
      .readObuf i ∈ before ++ after ∧ olen ≤ i ∧ run = .refused (.obufBeyondOlen i olen)
    (∀ d : List Byte, last = .issue d →
      ∃ u : State, step { State.reset with config := s.config, script := [.issue d] } = .next u ∧
        ((∃ t : State, run = .next t ∧ t.response = u.response) ∨ readsTooFar)) ∧
    ((last = .reset ∨ ∃ taken, last = .resetMidCommand taken) →
      (∃ t : State, run = .next t ∧ t.response = State.reset.response) ∨ readsTooFar)

/-- The state after reset is consistent (Safety.lean, `State.Consistent`). -/
def Obligations.ResetIsConsistent : Prop := State.reset.Consistent

/-- Every step from a consistent state leads to a consistent state: SEQ idle, STATUS legal, OLEN within OUT_MAX, CV, RESULT,
ACC and OBUF in agreement, nothing readable after an error (R20, R22, R27 to R30, R36). That DBUF is empty between
commands is the model's choice (log 5). "Every step" includes the model's own: the step with an empty script (log 4),
the byte-wise read (log 8) and the reset in mid-command (log 9). -/
def Obligations.StepKeepsTheBlockConsistent : Prop :=
  ∀ s t : State, s.Consistent → step s = .next t → t.Consistent

/-! ### STATUS and byte order -/

/-- R26, R27: each field of STATUS reads back as written, for every CODE; bits 7:6 read as 0. -/
def Obligations.StatusFieldsReadBack : Prop :=
  ∀ (s : State) (done cv : Bool) (code : Code), s.status = statusWord done cv code →
    s.done = done ∧ s.cv = cv ∧ s.code = some code ∧ s.reservedField = 0 ∧
    s.status.toNat = (if done then 32 else 0) + (if cv then 16 else 0) + code.bits.toNat

/-- R42, R43, R44: `be16` and `u16` are each other's inverse, most significant byte first. -/
def Obligations.BigEndianBytesAndWordsAgree : Prop :=
  (∀ w : Word, ∃ h l : Byte, be16 w = [h, l] ∧ u16 h l = w ∧ w.toNat = h.toNat * 256 + l.toNat) ∧
  (∀ h l : Byte, be16 (u16 h l) = [h, l])

/-! ### The checksum (spec/40_checksum.md) -/

/-- R90: the words of a byte sequence, by offset. -/
def Obligations.WordsPairBytesFromTheFirst : Prop :=
  ∀ b : List Byte,
    (words b).length = (b.length + 1) / 2 ∧
    ∀ i, i < (words b).length →
      ∃ w : Word, (words b)[i]? = some w ∧
        (2 * i + 1 < b.length → w.toNat = (byteAt b (2 * i)).toNat * 256 + (byteAt b (2 * i + 1)).toNat) ∧
        (2 * i + 1 = b.length → w.toNat = (byteAt b (2 * i)).toNat * 256)

/-- R91: the raw sum is the sum of the words, 0 for no bytes, and (second sentence, which the spec marks as derived)
the sum of the bytes, each times 256 at an even offset. -/
def Obligations.RawSumIsTheSumOverByteOffsets : Prop :=
  rawSum [] = 0 ∧
  ∀ b : List Byte,
    rawSum b = ((words b).map BitVec.toNat).sum ∧
    rawSum b = ((List.range b.length).map fun j =>
      if j % 2 = 0 then (byteAt b j).toNat * 256 else (byteAt b j).toNat).sum

/-- R92: `fold` is the loop: a sum within 16 bits is left as it is, a larger one is replaced by its low half plus its
carry, which is smaller, and the end value is within 16 bits. -/
def Obligations.FoldIsTheEndAroundCarryLoop : Prop :=
  ∀ n : Nat,
    fold n ≤ 0xFFFF ∧ (n ≤ 0xFFFF → fold n = n) ∧
    (n > 0xFFFF → n % 65536 + n / 65536 < n ∧ fold n = fold (n % 65536 + n / 65536))

/-- R98 (which the spec marks as derived): the closed form of `fold`. -/
def Obligations.FoldHasItsClosedForm : Prop :=
  fold 0 = 0 ∧
  ∀ n : Nat, 1 ≤ n →
    fold n = (n - 1) % 65535 + 1 ∧ 1 ≤ fold n ∧ fold n ≤ 0xFFFF ∧ fold n % 65535 = n % 65535 ∧
    (fold n = 0xFFFF ↔ 65535 ∣ n)

/-- R93: the checksum is the complement of the folded raw sum, for every byte sequence. -/
def Obligations.ChecksumIsTheComplementOfTheFoldedSum : Prop :=
  ∀ b : List Byte,
    checksum b = ~~~ BitVec.ofNat 16 (fold (rawSum b)) ∧ (checksum b).toNat = 0xFFFF - fold (rawSum b)

/-- R94: end-around-carry addition and its corner values. -/
def Obligations.EacAddIsEndAroundCarryAddition : Prop :=
  (∀ a v : Word,
    (a.toNat + v.toNat ≤ 0xFFFF → (eacAdd a v).toNat = a.toNat + v.toNat) ∧
    (a.toNat + v.toNat > 0xFFFF → (eacAdd a v).toNat = a.toNat + v.toNat - 0x10000 + 1)) ∧
  (∀ a : Word, eacAdd a 0x0000 = a ∧ eacAdd 0x0000 a = a) ∧
  (∀ a : Word, 1 ≤ a.toNat → eacAdd a 0xFFFF = a) ∧
  eacAdd 0x0000 0xFFFF = 0xFFFF ∧ eacAdd 0xFFFF 0xFFFF = 0xFFFF

/-- R95: what `clear` and `absorb` make of ACC and ODD, and that they change nothing else. -/
def Obligations.ClearAndAbsorbChangeAccAndOdd : Prop :=
  ∀ (s : State) (b : Byte),
    s.clear = { s with acc := 0x0000, odd := false } ∧
    (s.odd = false → s.absorb b = { s with acc := eacAdd s.acc (BitVec.ofNat 16 (b.toNat * 256)), odd := true }) ∧
    (s.odd = true → s.absorb b = { s with acc := eacAdd s.acc (BitVec.ofNat 16 b.toNat), odd := false })

/-- R97 (which the spec marks as derived), with R96's ODD: the byte-serial engine, from any state, computes the
checksum; ACC is the folded sum and ODD the length mod 2. -/
def Obligations.EngineComputesTheChecksum : Prop :=
  ∀ (s : State) (b : List Byte),
    (s.clear.absorbAll b).finish = checksum b ∧
    s.clear.absorbAll b =
      { s with acc := BitVec.ofNat 16 (fold (rawSum b)), odd := decide (b.length % 2 = 1) }

/-- R99 (which the spec marks as derived): when a checksum is 0xFFFF, when it is 0x0000, and that of one byte. -/
def Obligations.ChecksumValuesAndTheirCauses : Prop :=
  ∀ b : List Byte,
    (checksum b = 0xFFFF ↔ ∀ x ∈ b, x = 0x00) ∧
    (checksum b = 0x0000 ↔ 1 ≤ rawSum b ∧ 65535 ∣ rawSum b) ∧
    ∀ x : Byte, checksum [x] = ~~~ BitVec.ofNat 16 (x.toNat * 256)

/-- R99 (f) (which the spec marks as derived): any permutation of whole words leaves the checksum unchanged. -/
def Obligations.WordOrderDoesNotMatter : Prop :=
  ∀ (p q : List (Byte × Byte)) (tail : List Byte), p.Perm q →
    checksum (p.flatMap (fun w => [w.1, w.2]) ++ tail) = checksum (q.flatMap (fun w => [w.1, w.2]) ++ tail)

/-- R104 (which the spec marks as derived): appended zeros, an even prefix, one word replaced. -/
def Obligations.ChecksumLawsOfConcatenation : Prop :=
  (∀ (b : List Byte) (k : Nat), checksum (b ++ zeros k) = checksum b) ∧
  (∀ a b : List Byte, a.length % 2 = 0 →
    rawSum (a ++ b) = rawSum a + rawSum b ∧
    BitVec.ofNat 16 (fold (rawSum (a ++ b))) =
      eacAdd (BitVec.ofNat 16 (fold (rawSum a))) (BitVec.ofNat 16 (fold (rawSum b)))) ∧
  (∀ (m : List Byte) (k : Nat) (w : Word), k % 2 = 0 → k + 1 < m.length →
    rawSum (overwrite m k (be16 w)) + (memRead16 m k).toNat = rawSum m + w.toNat)

/-- R101 (which the spec marks as derived): the verification identity, at every even offset. -/
def Obligations.FilledInChecksumVerifies : Prop :=
  ∀ (m : List Byte) (k : Nat), k % 2 = 0 → k + 1 < m.length →
    let zeroed := overwrite m k [0x00, 0x00]
    checksum (overwrite zeroed k (be16 (checksum zeroed))) = 0x0000

/-- R48 and 90_conflicts C2: at an odd offset the identity fails; the spec's counter-example V-ODDOFF. -/
def Obligations.OddOffsetDoesNotVerify : Prop :=
  let zeroed : List Byte := [0x00, 0x00, 0x00, 0x01]
  checksum zeroed = 0xFFFE ∧ overwrite zeroed 1 (be16 (checksum zeroed)) = [0x00, 0xFF, 0xFE, 0x01] ∧
  checksum (overwrite zeroed 1 (be16 (checksum zeroed))) = 0x00FF

/-- R103 (which the spec marks as derived): what verifying gives when the field held x while the checksum was
computed. -/
def Obligations.StaleFieldShowsInTheVerification : Prop :=
  ∀ (m : List Byte) (k : Nat) (x : Word), k % 2 = 0 → k + 1 < m.length →
    let sent := overwrite m k (be16 (checksum (overwrite m k (be16 x))))
    (checksum sent).toNat % 65535 = x.toNat % 65535 ∧
    (checksum sent = 0x0000 → x = 0x0000 ∨ x = 0xFFFF) ∧
    (x ≠ 0x0000 → x ≠ 0xFFFF → checksum sent = x)

/-- R105 (which the spec marks as derived): the field values that verify. -/
def Obligations.FieldValuesThatVerify : Prop :=
  ∀ (m : List Byte) (k : Nat) (f : Word), k % 2 = 0 → k + 1 < m.length →
    let s := fold (rawSum (overwrite m k [0x00, 0x00]))
    let verifies := checksum (overwrite m k (be16 f)) = 0x0000
    (1 ≤ s → s ≤ 0xFFFE → (verifies ↔ f.toNat = 0xFFFF - s)) ∧
    (s = 0 → (verifies ↔ f = 0xFFFF)) ∧
    (s = 0xFFFF → (verifies ↔ f = 0x0000 ∨ f = 0xFFFF))

/-! ### The assembler (spec/30_encoding.md R80 to R84) -/

/-- R82: a MAC operand is 12 hexadecimal digits and nothing else, its bytes in text order. -/
def Obligations.MacOperandIsTwelveHexDigits : Prop :=
  ∀ cs : List Char,
    ((macOf cs).isSome = true ↔ cs.length = 12 ∧ ∀ c ∈ cs, (hexDigit c).isSome = true) ∧
    ∀ m : Mac, macOf cs = some m →
      ∀ (i : Nat) (b : Byte), m.bytes[i]? = some b →
        ∃ (h l : Char) (hv lv : Nat), cs[2 * i]? = some h ∧ cs[2 * i + 1]? = some l ∧
          hexDigit h = some hv ∧ hexDigit l = some lv ∧ b.toNat = hv * 16 + lv

/-- R84, R83: `VERIFY data=OBUF` issues a CSUM of the bytes the last command left in OBUF, and passes exactly when their
checksum is 0x0000. -/
def Obligations.VerifyPassesExactlyOnZeroChecksum : Prop :=
  ∀ s : State, s.script = [] →
    ∃ t : State, runLine s "VERIFY data=OBUF".toList = .done t (decide (checksum s.obuf = 0x0000)) ∧
      t.status = 0x30 ∧ t.result = checksum s.obuf ∧ t.obuf = []
end

