-- ==== Sys2Proof/Laws/Operands.lean ====
section
/-! SUPPORT. Small facts about byte order, operand forms and the overwriting of bytes. -/
namespace Sys2Proof

theorem toNat_u16 (h l : Byte) : (u16 h l).toNat = h.toNat * 256 + l.toNat := by
  have := h.isLt; have := l.isLt
  simp only [u16, BitVec.toNat_ofNat]; omega

theorem be16_eq (w : Word) : be16 w = [BitVec.ofNat 8 (w.toNat / 256), BitVec.ofNat 8 (w.toNat % 256)] := by
  have := w.isLt
  simp only [be16, List.cons.injEq, and_true]
  constructor <;> apply BitVec.eq_of_toNat_eq <;> simp [BitVec.extractLsb'_toNat, Nat.shiftRight_eq_div_pow]

@[simp] theorem be16_length (w : Word) : (be16 w).length = 2 := rfl
@[simp] theorem Mac.bytes_length (m : Mac) : m.bytes.length = 6 := rfl
@[simp] theorem Ip.bytes_length (a : Ip) : a.bytes.length = 4 := rfl
@[simp] theorem zeros_length (n : Nat) : (zeros n).length = n := by simp [zeros]

@[simp] theorem EtherName.ofSel_sel (n : EtherName) : EtherName.ofSel n.sel = some n := by
  cases n <;> decide

theorem EtherName.sel_of_ofSel {b : Byte} {n : EtherName} (h : EtherName.ofSel b = some n) : n.sel = b := by
  unfold EtherName.ofSel at h; split_ifs at h <;> simp_all [EtherName.sel] <;> subst h <;> simp

@[simp] theorem Opcode.ofByte_byte (op : Opcode) : Opcode.ofByte op.byte = some op := by
  cases op <;> decide

theorem Opcode.byte_of_ofByte {b : Byte} {op : Opcode} (h : Opcode.ofByte b = some op) : op.byte = b := by
  unfold Opcode.ofByte at h; split_ifs at h <;> simp_all [Opcode.byte] <;> subst h <;> simp

@[simp] theorem byteAt_cons_zero (b : Byte) (d : List Byte) : byteAt (b :: d) 0 = b := rfl
@[simp] theorem byteAt_cons_succ (b : Byte) (d : List Byte) (i : Nat) : byteAt (b :: d) (i + 1) = byteAt d i := rfl

theorem byteAt_of_lt {d : List Byte} {i : Nat} (h : i < d.length) : byteAt d i = d[i] := by
  simp [byteAt, h]

namespace Machine

@[simp] theorem overwrite_nil (buf : List Byte) (addr : Nat) : overwrite buf addr [] = buf := rfl
@[simp] theorem overwrite_cons (buf : List Byte) (addr : Nat) (b : Byte) (v : List Byte) :
    overwrite buf addr (b :: v) = overwrite (buf.set addr b) (addr + 1) v := rfl

@[simp] theorem overwrite_length (buf : List Byte) (addr : Nat) (v : List Byte) :
    (overwrite buf addr v).length = buf.length := by
  induction v generalizing buf addr with
  | nil => rfl
  | cons b v ih => simp [ih]

/-- A byte below the overwritten range stays. -/
theorem overwrite_getElem?_below (buf : List Byte) (addr i : Nat) (v : List Byte) (h : i < addr) :
    (overwrite buf addr v)[i]? = buf[i]? := by
  induction v generalizing buf addr with
  | nil => rfl
  | cons b v ih => rw [overwrite_cons, ih _ _ (by omega), List.getElem?_set_ne (by omega)]

end Machine
end Sys2Proof
end

