-- ==== Sys2Proof/Laws/Checksum.lean ====
section
/-! SUPPORT. Small facts about words, the raw sum, folding and end-around-carry addition (spec/40_checksum.md R90 to R94). -/
namespace Sys2Proof

@[simp] theorem rawSum_nil : rawSum [] = 0 := rfl

@[simp] theorem rawSum_singleton (b : Byte) : rawSum [b] = b.toNat * 256 := by
  simp [rawSum, words, toNat_u16]

@[simp] theorem rawSum_cons_cons (h l : Byte) (rest : List Byte) :
    rawSum (h :: l :: rest) = h.toNat * 256 + l.toNat + rawSum rest := by
  simp [rawSum, words, toNat_u16]

/-- One pass of R92's loop keeps the residue modulo 65535 and never makes a positive sum zero. -/
theorem fold_pass (s : Nat) (h : s > 0xFFFF) :
    (s % 65536 + s / 65536) % 65535 = s % 65535 ∧ 0 < s % 65536 + s / 65536 ∧ s % 65536 + s / 65536 < s := by
  omega

/-- Enough passes end within 16 bits. -/
theorem foldPasses_le (fuel s : Nat) (h : s ≤ fuel) : foldPasses fuel s ≤ 0xFFFF := by
  induction fuel generalizing s with
  | zero => simp only [foldPasses]; omega
  | succ fuel ih =>
    unfold foldPasses; split
    · exact ih _ (by omega)
    · omega

/-- Passes keep the residue modulo 65535 and whether the sum is zero. -/
theorem foldPasses_residue (fuel s : Nat) :
    foldPasses fuel s % 65535 = s % 65535 ∧ (foldPasses fuel s = 0 ↔ s = 0) := by
  induction fuel generalizing s with
  | zero => simp [foldPasses]
  | succ fuel ih =>
    unfold foldPasses; split
    · have := ih (s % 65536 + s / 65536); omega
    · simp

theorem toNat_eacAdd (a v : Word) :
    (eacAdd a v).toNat = if a.toNat + v.toNat ≤ 0xFFFF then a.toNat + v.toNat else a.toNat + v.toNat - 0xFFFF := by
  have := a.isLt; have := v.isLt
  unfold eacAdd; dsimp only; split <;> simp only [BitVec.toNat_ofNat] <;> omega

/-- A number within 16 bits is determined by its residue modulo 65535 and by whether it is zero (R98). -/
theorem eq_of_residue {a b : Nat} (ha : a ≤ 0xFFFF) (hb : b ≤ 0xFFFF) (h : a % 65535 = b % 65535)
    (hz : a = 0 ↔ b = 0) : a = b := by
  omega

end Sys2Proof
end

