-- ==== Sys2Proof/Laws/PerInstr.lean ====
section
/-! SUPPORT. What holds of every command as syntax, one lemma per constructor. -/
namespace Sys2Proof.Laws.EncodeShape

/-- The opcode of a command (spec/30_encoding.md R60). -/
def opcodeOf : Instr → Opcode
  | .csum _ => .csum
  | .eth _ _ _ _ => .eth
  | .arpreq _ _ _ => .arpreq
  | .icmpreq _ _ _ => .icmpreq

/-- The payload of a command (R60, R62 to R65). -/
def payload : Instr → List Byte
  | .csum data => data
  | .eth _ _ _ payload => payload
  | .arpreq _ _ _ => []
  | .icmpreq _ _ payload => payload

/-- R60: a descriptor is the opcode byte, F fixed operand bytes, and then the payload to its end. -/
def Statement (i : Instr) : Prop :=
  (encode i).head? = some (opcodeOf i).byte ∧
  (encode i).length = 1 + (opcodeOf i).fixedBytes + (payload i).length ∧
  payloadOf (opcodeOf i) (encode i) = payload i

theorem csum (data : List Byte) : Statement (.csum data) :=
  ⟨rfl, by simp [encode, opcodeOf, payload, Opcode.fixedBytes]; omega, rfl⟩

theorem eth (dmac smac : Mac) (name : EtherName) (p : List Byte) : Statement (.eth dmac smac name p) :=
  ⟨rfl, by simp [encode, opcodeOf, payload, Opcode.fixedBytes]; omega, rfl⟩

theorem arpreq (lmac : Mac) (lip tip : Ip) : Statement (.arpreq lmac lip tip) := ⟨rfl, rfl, rfl⟩

theorem icmpreq (id seqno : Word) (p : List Byte) : Statement (.icmpreq id seqno p) :=
  ⟨rfl, by simp [encode, opcodeOf, payload, Opcode.fixedBytes]; omega, rfl⟩

end Sys2Proof.Laws.EncodeShape
end

