-- ==== Sys2Proof/Laws/State.lean ====
section
/-! SUPPORT. One lemma per field of State per update of Machine/Ops.lean, so that no proof unfolds a record update. -/
namespace Sys2Proof.Machine

variable (s : State)

/-! ### clearOutput -/

@[simp] theorem State.clearOutput_status : (s.clearOutput).status = s.status := rfl
@[simp] theorem State.clearOutput_result : (s.clearOutput).result = s.result := rfl
@[simp] theorem State.clearOutput_obuf : (s.clearOutput).obuf = [] := rfl
@[simp] theorem State.clearOutput_acc : (s.clearOutput).acc = s.acc := rfl
@[simp] theorem State.clearOutput_odd : (s.clearOutput).odd = s.odd := rfl
@[simp] theorem State.clearOutput_dbuf : (s.clearOutput).dbuf = s.dbuf := rfl
@[simp] theorem State.clearOutput_seq : (s.clearOutput).seq = s.seq := rfl
@[simp] theorem State.clearOutput_config : (s.clearOutput).config = s.config := rfl
@[simp] theorem State.clearOutput_script : (s.clearOutput).script = s.script := rfl
@[simp] theorem State.clearOutput_hostSaw : (s.clearOutput).hostSaw = s.hostSaw := rfl

/-! ### emit -/

@[simp] theorem State.emit_status (v : List Byte) : (s.emit v).status = s.status := rfl
@[simp] theorem State.emit_result (v : List Byte) : (s.emit v).result = s.result := rfl
@[simp] theorem State.emit_obuf (v : List Byte) : (s.emit v).obuf = s.obuf ++ v := rfl
@[simp] theorem State.emit_acc (v : List Byte) : (s.emit v).acc = s.acc := rfl
@[simp] theorem State.emit_odd (v : List Byte) : (s.emit v).odd = s.odd := rfl
@[simp] theorem State.emit_dbuf (v : List Byte) : (s.emit v).dbuf = s.dbuf := rfl
@[simp] theorem State.emit_seq (v : List Byte) : (s.emit v).seq = s.seq := rfl
@[simp] theorem State.emit_config (v : List Byte) : (s.emit v).config = s.config := rfl
@[simp] theorem State.emit_script (v : List Byte) : (s.emit v).script = s.script := rfl
@[simp] theorem State.emit_hostSaw (v : List Byte) : (s.emit v).hostSaw = s.hostSaw := rfl

/-! ### memWrite -/

@[simp] theorem State.memWrite_status (addr : Nat) (v : List Byte) : (s.memWrite addr v).status = s.status := rfl
@[simp] theorem State.memWrite_result (addr : Nat) (v : List Byte) : (s.memWrite addr v).result = s.result := rfl
@[simp] theorem State.memWrite_obuf (addr : Nat) (v : List Byte) : (s.memWrite addr v).obuf = overwrite s.obuf addr v := rfl
@[simp] theorem State.memWrite_acc (addr : Nat) (v : List Byte) : (s.memWrite addr v).acc = s.acc := rfl
@[simp] theorem State.memWrite_odd (addr : Nat) (v : List Byte) : (s.memWrite addr v).odd = s.odd := rfl
@[simp] theorem State.memWrite_dbuf (addr : Nat) (v : List Byte) : (s.memWrite addr v).dbuf = s.dbuf := rfl
@[simp] theorem State.memWrite_seq (addr : Nat) (v : List Byte) : (s.memWrite addr v).seq = s.seq := rfl
@[simp] theorem State.memWrite_config (addr : Nat) (v : List Byte) : (s.memWrite addr v).config = s.config := rfl
@[simp] theorem State.memWrite_script (addr : Nat) (v : List Byte) : (s.memWrite addr v).script = s.script := rfl
@[simp] theorem State.memWrite_hostSaw (addr : Nat) (v : List Byte) : (s.memWrite addr v).hostSaw = s.hostSaw := rfl

/-! ### clear -/

@[simp] theorem State.clear_status : (s.clear).status = s.status := rfl
@[simp] theorem State.clear_result : (s.clear).result = s.result := rfl
@[simp] theorem State.clear_obuf : (s.clear).obuf = s.obuf := rfl
@[simp] theorem State.clear_acc : (s.clear).acc = 0x0000 := rfl
@[simp] theorem State.clear_odd : (s.clear).odd = false := rfl
@[simp] theorem State.clear_dbuf : (s.clear).dbuf = s.dbuf := rfl
@[simp] theorem State.clear_seq : (s.clear).seq = s.seq := rfl
@[simp] theorem State.clear_config : (s.clear).config = s.config := rfl
@[simp] theorem State.clear_script : (s.clear).script = s.script := rfl
@[simp] theorem State.clear_hostSaw : (s.clear).hostSaw = s.hostSaw := rfl

/-! ### takeDescriptor -/

@[simp] theorem State.takeDescriptor_status (d : List Byte) : (s.takeDescriptor d).status = s.status := rfl
@[simp] theorem State.takeDescriptor_result (d : List Byte) : (s.takeDescriptor d).result = s.result := rfl
@[simp] theorem State.takeDescriptor_obuf (d : List Byte) : (s.takeDescriptor d).obuf = s.obuf := rfl
@[simp] theorem State.takeDescriptor_acc (d : List Byte) : (s.takeDescriptor d).acc = s.acc := rfl
@[simp] theorem State.takeDescriptor_odd (d : List Byte) : (s.takeDescriptor d).odd = s.odd := rfl
@[simp] theorem State.takeDescriptor_dbuf (d : List Byte) : (s.takeDescriptor d).dbuf = d := rfl
@[simp] theorem State.takeDescriptor_seq (d : List Byte) : (s.takeDescriptor d).seq = .busy := rfl
@[simp] theorem State.takeDescriptor_config (d : List Byte) : (s.takeDescriptor d).config = s.config := rfl
@[simp] theorem State.takeDescriptor_script (d : List Byte) : (s.takeDescriptor d).script = s.script := rfl
@[simp] theorem State.takeDescriptor_hostSaw (d : List Byte) : (s.takeDescriptor d).hostSaw = s.hostSaw := rfl

/-! ### respond -/

@[simp] theorem State.respond_status (cv : Bool) (code : Code) (r : Word) : (s.respond cv code r).status = statusWord true cv code := rfl
@[simp] theorem State.respond_result (cv : Bool) (code : Code) (r : Word) : (s.respond cv code r).result = r := rfl
@[simp] theorem State.respond_obuf (cv : Bool) (code : Code) (r : Word) : (s.respond cv code r).obuf = s.obuf := rfl
@[simp] theorem State.respond_acc (cv : Bool) (code : Code) (r : Word) : (s.respond cv code r).acc = s.acc := rfl
@[simp] theorem State.respond_odd (cv : Bool) (code : Code) (r : Word) : (s.respond cv code r).odd = s.odd := rfl
@[simp] theorem State.respond_dbuf (cv : Bool) (code : Code) (r : Word) : (s.respond cv code r).dbuf = [] := rfl
@[simp] theorem State.respond_seq (cv : Bool) (code : Code) (r : Word) : (s.respond cv code r).seq = .idle := rfl
@[simp] theorem State.respond_config (cv : Bool) (code : Code) (r : Word) : (s.respond cv code r).config = s.config := rfl
@[simp] theorem State.respond_script (cv : Bool) (code : Code) (r : Word) : (s.respond cv code r).script = s.script := rfl
@[simp] theorem State.respond_hostSaw (cv : Bool) (code : Code) (r : Word) : (s.respond cv code r).hostSaw = s.hostSaw := rfl

/-! ### respondPlain -/

@[simp] theorem State.respondPlain_status : (s.respondPlain).status = 0x20 := rfl
@[simp] theorem State.respondPlain_result : (s.respondPlain).result = 0x0000 := rfl
@[simp] theorem State.respondPlain_obuf : (s.respondPlain).obuf = s.obuf := rfl
@[simp] theorem State.respondPlain_acc : (s.respondPlain).acc = s.acc := rfl
@[simp] theorem State.respondPlain_odd : (s.respondPlain).odd = s.odd := rfl
@[simp] theorem State.respondPlain_dbuf : (s.respondPlain).dbuf = [] := rfl
@[simp] theorem State.respondPlain_seq : (s.respondPlain).seq = .idle := rfl
@[simp] theorem State.respondPlain_config : (s.respondPlain).config = s.config := rfl
@[simp] theorem State.respondPlain_script : (s.respondPlain).script = s.script := rfl
@[simp] theorem State.respondPlain_hostSaw : (s.respondPlain).hostSaw = s.hostSaw := rfl

/-! ### respondChecksum -/

@[simp] theorem State.respondChecksum_status (c : Word) : (s.respondChecksum c).status = 0x30 := rfl
@[simp] theorem State.respondChecksum_result (c : Word) : (s.respondChecksum c).result = c := rfl
@[simp] theorem State.respondChecksum_obuf (c : Word) : (s.respondChecksum c).obuf = s.obuf := rfl
@[simp] theorem State.respondChecksum_acc (c : Word) : (s.respondChecksum c).acc = s.acc := rfl
@[simp] theorem State.respondChecksum_odd (c : Word) : (s.respondChecksum c).odd = s.odd := rfl
@[simp] theorem State.respondChecksum_dbuf (c : Word) : (s.respondChecksum c).dbuf = [] := rfl
@[simp] theorem State.respondChecksum_seq (c : Word) : (s.respondChecksum c).seq = .idle := rfl
@[simp] theorem State.respondChecksum_config (c : Word) : (s.respondChecksum c).config = s.config := rfl
@[simp] theorem State.respondChecksum_script (c : Word) : (s.respondChecksum c).script = s.script := rfl
@[simp] theorem State.respondChecksum_hostSaw (c : Word) : (s.respondChecksum c).hostSaw = s.hostSaw := rfl

/-! ### fail -/

@[simp] theorem State.fail_status (e : ErrCode) : (s.fail e).status = statusWord true false (codeOfErr e) := rfl
@[simp] theorem State.fail_result (e : ErrCode) : (s.fail e).result = 0x0000 := rfl
@[simp] theorem State.fail_obuf (e : ErrCode) : (s.fail e).obuf = [] := rfl
@[simp] theorem State.fail_acc (e : ErrCode) : (s.fail e).acc = s.acc := rfl
@[simp] theorem State.fail_odd (e : ErrCode) : (s.fail e).odd = s.odd := rfl
@[simp] theorem State.fail_dbuf (e : ErrCode) : (s.fail e).dbuf = [] := rfl
@[simp] theorem State.fail_seq (e : ErrCode) : (s.fail e).seq = .idle := rfl
@[simp] theorem State.fail_config (e : ErrCode) : (s.fail e).config = s.config := rfl
@[simp] theorem State.fail_script (e : ErrCode) : (s.fail e).script = s.script := rfl
@[simp] theorem State.fail_hostSaw (e : ErrCode) : (s.fail e).hostSaw = s.hostSaw := rfl

/-! ### resetAction -/

@[simp] theorem State.resetAction_status : (s.resetAction).status = 0x00 := rfl
@[simp] theorem State.resetAction_result : (s.resetAction).result = 0x0000 := rfl
@[simp] theorem State.resetAction_obuf : (s.resetAction).obuf = [] := rfl
@[simp] theorem State.resetAction_acc : (s.resetAction).acc = 0x0000 := rfl
@[simp] theorem State.resetAction_odd : (s.resetAction).odd = false := rfl
@[simp] theorem State.resetAction_dbuf : (s.resetAction).dbuf = [] := rfl
@[simp] theorem State.resetAction_seq : (s.resetAction).seq = .idle := rfl
@[simp] theorem State.resetAction_config : (s.resetAction).config = s.config := rfl
@[simp] theorem State.resetAction_script : (s.resetAction).script = s.script := rfl
@[simp] theorem State.resetAction_hostSaw : (s.resetAction).hostSaw = s.hostSaw := rfl

/-! ### observe -/

@[simp] theorem State.observe_status (o : Observation) : (s.observe o).status = s.status := rfl
@[simp] theorem State.observe_result (o : Observation) : (s.observe o).result = s.result := rfl
@[simp] theorem State.observe_obuf (o : Observation) : (s.observe o).obuf = s.obuf := rfl
@[simp] theorem State.observe_acc (o : Observation) : (s.observe o).acc = s.acc := rfl
@[simp] theorem State.observe_odd (o : Observation) : (s.observe o).odd = s.odd := rfl
@[simp] theorem State.observe_dbuf (o : Observation) : (s.observe o).dbuf = s.dbuf := rfl
@[simp] theorem State.observe_seq (o : Observation) : (s.observe o).seq = s.seq := rfl
@[simp] theorem State.observe_config (o : Observation) : (s.observe o).config = s.config := rfl
@[simp] theorem State.observe_script (o : Observation) : (s.observe o).script = s.script := rfl
@[simp] theorem State.observe_hostSaw (o : Observation) : (s.observe o).hostSaw = s.hostSaw ++ [o] := rfl

/-! ### absorb and absorbAll: ACC and ODD only (spec/40_checksum.md R95) -/

@[simp] theorem State.absorb_status (b : Byte) : (s.absorb b).status = s.status := by
  unfold State.absorb; split <;> rfl
@[simp] theorem State.absorb_result (b : Byte) : (s.absorb b).result = s.result := by
  unfold State.absorb; split <;> rfl
@[simp] theorem State.absorb_obuf (b : Byte) : (s.absorb b).obuf = s.obuf := by
  unfold State.absorb; split <;> rfl
@[simp] theorem State.absorb_dbuf (b : Byte) : (s.absorb b).dbuf = s.dbuf := by
  unfold State.absorb; split <;> rfl
@[simp] theorem State.absorb_seq (b : Byte) : (s.absorb b).seq = s.seq := by
  unfold State.absorb; split <;> rfl
@[simp] theorem State.absorb_config (b : Byte) : (s.absorb b).config = s.config := by
  unfold State.absorb; split <;> rfl
@[simp] theorem State.absorb_script (b : Byte) : (s.absorb b).script = s.script := by
  unfold State.absorb; split <;> rfl
@[simp] theorem State.absorb_hostSaw (b : Byte) : (s.absorb b).hostSaw = s.hostSaw := by
  unfold State.absorb; split <;> rfl

@[simp] theorem State.absorb_odd (b : Byte) : (s.absorb b).odd = !s.odd := by
  unfold State.absorb; split <;> simp_all

@[simp] theorem State.absorb_acc (b : Byte) :
    (s.absorb b).acc = eacAdd s.acc (if s.odd then u16 0x00 b else u16 b 0x00) := by
  unfold State.absorb; split <;> simp_all

@[simp] theorem State.absorbAll_nil : s.absorbAll [] = s := rfl
@[simp] theorem State.absorbAll_cons (b : Byte) (bs : List Byte) :
    s.absorbAll (b :: bs) = (s.absorb b).absorbAll bs := rfl

@[simp] theorem State.absorbAll_status (bs : List Byte) : (s.absorbAll bs).status = s.status := by
  induction bs generalizing s with
  | nil => rfl
  | cons b bs ih => simp [ih]
@[simp] theorem State.absorbAll_result (bs : List Byte) : (s.absorbAll bs).result = s.result := by
  induction bs generalizing s with
  | nil => rfl
  | cons b bs ih => simp [ih]
@[simp] theorem State.absorbAll_obuf (bs : List Byte) : (s.absorbAll bs).obuf = s.obuf := by
  induction bs generalizing s with
  | nil => rfl
  | cons b bs ih => simp [ih]
@[simp] theorem State.absorbAll_dbuf (bs : List Byte) : (s.absorbAll bs).dbuf = s.dbuf := by
  induction bs generalizing s with
  | nil => rfl
  | cons b bs ih => simp [ih]
@[simp] theorem State.absorbAll_seq (bs : List Byte) : (s.absorbAll bs).seq = s.seq := by
  induction bs generalizing s with
  | nil => rfl
  | cons b bs ih => simp [ih]
@[simp] theorem State.absorbAll_config (bs : List Byte) : (s.absorbAll bs).config = s.config := by
  induction bs generalizing s with
  | nil => rfl
  | cons b bs ih => simp [ih]
@[simp] theorem State.absorbAll_script (bs : List Byte) : (s.absorbAll bs).script = s.script := by
  induction bs generalizing s with
  | nil => rfl
  | cons b bs ih => simp [ih]
@[simp] theorem State.absorbAll_hostSaw (bs : List Byte) : (s.absorbAll bs).hostSaw = s.hostSaw := by
  induction bs generalizing s with
  | nil => rfl
  | cons b bs ih => simp [ih]

@[simp] theorem State.absorbAll_odd (bs : List Byte) :
    (s.absorbAll bs).odd = xor s.odd (decide (bs.length % 2 = 1)) := by
  induction bs generalizing s with
  | nil => simp
  | cons b bs ih =>
    rcases Nat.mod_two_eq_zero_or_one bs.length with h | h
    · have h' : (bs.length + 1) % 2 = 1 := by omega
      simp [ih, h, h']
    · have h' : (bs.length + 1) % 2 = 0 := by omega
      simp [ih, h, h']

@[simp] theorem State.olen_eq : s.olen = s.obuf.length := rfl
@[simp] theorem State.finish_eq : s.finish = ~~~ s.acc := rfl

end Sys2Proof.Machine
end

