-- ==== Sys2Proof/Laws/Step.lean ====
section
/-! SUPPORT. What a step can do, said once, and the spec lemma of each shared operation. -/
namespace Sys2Proof.Machine

/-- A step either waits or takes the first action of the script. -/
theorem step_next_cases {s t : State} (h : step s = .next t) :
    (s.script = [] ∧ t = s) ∨
      ∃ a rest, s.script = a :: rest ∧ State.act { s with script := rest } a = .next t := by
  unfold step at h
  split at h
  · rename_i hs
    exact .inl ⟨hs, by simpa using h.symm⟩
  · rename_i a rest hs
    exact .inr ⟨a, rest, hs, h⟩

/-- With an action at the head of the script, the step is that action. -/
theorem step_eq_act {s : State} {a : HostAction} {rest : List HostAction} (h : s.script = a :: rest) :
    step s = State.act { s with script := rest } a := by
  simp [step, h]

/-- What an action other than `issue` can do. -/
theorem act_next_cases {s t : State} {a : HostAction} (h : s.act a = .next t) :
    (∃ d, a = .issue d ∧ s.issue d = .next t) ∨
    (a = .read ∧ t = s.observe (.response s.response)) ∨
    (∃ i b, a = .readObuf i ∧ s.obuf[i]? = some b ∧ t = s.observe (.obufByte i b)) ∨
    ((a = .reset ∨ ∃ taken, a = .resetMidCommand taken) ∧ t = s.resetAction) := by
  cases a with
  | issue d => exact .inl ⟨d, rfl, h⟩
  | read => exact .inr (.inl ⟨rfl, by simpa [State.act] using h.symm⟩)
  | readObuf i =>
    simp only [State.act, State.readObuf, State.obufByte] at h
    split at h
    · rename_i b hb
      exact .inr (.inr (.inl ⟨i, b, rfl, hb, by simpa using h.symm⟩))
    · simp at h
  | reset => exact .inr (.inr (.inr ⟨.inl rfl, by simpa [State.act] using h.symm⟩))
  | resetMidCommand taken =>
    exact .inr (.inr (.inr ⟨.inr ⟨taken, rfl⟩, (Host.Outcome.next.inj h).symm⟩))

/-! ### Lengths of the output -/

theorem State.emit_olen (s : State) (v : List Byte) : (s.emit v).olen = s.olen + v.length := by simp
theorem State.memWrite_olen (s : State) (addr : Nat) (v : List Byte) : (s.memWrite addr v).olen = s.olen := by simp
theorem State.clearOutput_olen (s : State) : s.clearOutput.olen = 0 := rfl

/-! ### What each builder leaves in OBUF -/

theorem State.emitFrame_eq (s : State) (dmac smac : Mac) (name : EtherName) (payload : List Byte) :
    s.emitFrame dmac smac name payload = { s with
      obuf := s.config.preamble ++ dmac.bytes ++ smac.bytes ++ be16 (s.config.etypeCode name) ++ payload } := by
  simp [State.emitFrame, State.emit, State.clearOutput]

theorem State.emitArpRequest_eq (s : State) (lmac : Mac) (lip tip : Ip) :
    s.emitArpRequest lmac lip tip = { s with
      obuf := be16 s.config.arpHtype ++ be16 s.config.arpPtype ++ [0x06, 0x04, 0x00, 0x01] ++ lmac.bytes ++
        lip.bytes ++ zeros 6 ++ tip.bytes } := by
  simp [State.emitArpRequest, State.emit, State.clearOutput]

theorem State.emitEchoRequest_eq (s : State) (id seqno : Word) (payload : List Byte) :
    s.emitEchoRequest id seqno payload = { s with
      obuf := [0x08, 0x00, 0x00, 0x00] ++ be16 id ++ be16 seqno ++ payload } := by
  simp [State.emitEchoRequest, State.emit, State.clearOutput]

/-- Summing changes ACC and ODD only (40_checksum R95). -/
theorem State.absorbAll_eq (s : State) (bs : List Byte) :
    s.absorbAll bs = { s with acc := (s.absorbAll bs).acc, odd := xor s.odd (decide (bs.length % 2 = 1)) } := by
  have eta : ∀ t : State, t = ⟨t.status, t.result, t.obuf, t.acc, t.odd, t.dbuf, t.seq, t.config, t.script, t.hostSaw⟩ :=
    fun _ => rfl
  rw [eta (s.absorbAll bs)]; simp

end Sys2Proof.Machine
end

