-- ==== Sys2Proof/Tests/Slice0.lean ====
section
/-! SUPPORT. Tests on fixed values, expected results from spec/95_test_vectors.md, and a witness for the hypotheses of each obligation. -/
namespace Sys2Proof.Tests
open Sys2Proof Sys2Proof.Machine

/-! ### The configurations of 95_test_vectors.md -/

def c8 : Config := Config.suggested 1500
def c0 : Config := { c8 with preamble := [] }
def c4 : Config := { c0 with payloadMax := 4 }
def cx : Config := { c0 with arpHtype := 0x0006, arpPtype := 0x86DD }

/-- The reset state of an instance with configuration `cfg`, and the host's next actions. -/
def fresh (cfg : Config) (script : List HostAction) : State := { State.reset with config := cfg, script := script }

/-- The response to one descriptor after reset. -/
def answer (cfg : Config) (d : List Byte) : Option Response :=
  match step (fresh cfg [.issue d]) with
  | .next t => some t.response
  | _ => none

/-- A response as the vectors write it. -/
def resp (status : BitVec 8) (result : Word) (obuf : List Byte) : Option Response :=
  some { status := status, result := result, olen := obuf.length, obuf := obuf }

def decoded (cfg : Config) (d : List Byte) : Option Instr :=
  match decode cfg d with
  | .ok i => some i
  | .error _ => none

def broadcast : Mac := ⟨0xFF, 0xFF, 0xFF, 0xFF, 0xFF, 0xFF⟩
def aabb : Mac := ⟨0xAA, 0xBB, 0xCC, 0xDD, 0xEE, 0xFF⟩
def ping : List Byte := [0x70, 0x69, 0x6E, 0x67]

/-! ### WellFormed: each check refuses an ill-formed term -/

theorem test_wellFormed_eth_limit : Instr.wellFormed c4 (.eth broadcast aabb .ipv4 [1, 2, 3, 4]) = true := by decide
theorem test_wellFormed_eth_over : Instr.wellFormed c4 (.eth broadcast aabb .ipv4 [1, 2, 3, 4, 5]) = false := by decide
theorem test_wellFormed_icmpreq_limit : Instr.wellFormed c4 (.icmpreq 1 1 [1, 2, 3, 4]) = true := by decide
theorem test_wellFormed_icmpreq_over : Instr.wellFormed c4 (.icmpreq 1 1 [1, 2, 3, 4, 5]) = false := by decide
theorem test_wellFormed_csum_unbounded : Instr.wellFormed c4 (.csum [1, 2, 3, 4, 5]) = true := by decide

/-! ### Decoding: words written out from R62 to R65 (95_test_vectors S6, S7, V-C13, V-D9) -/

theorem test_decode_csum : decoded c0 [0x01, 0x12, 0x34, 0x56] = some (.csum [0x12, 0x34, 0x56]) := by decide
theorem test_decode_eth :
    decoded c0 [0x02, 0xFF, 0xFF, 0xFF, 0xFF, 0xFF, 0xFF, 0xAA, 0xBB, 0xCC, 0xDD, 0xEE, 0xFF, 0x00] =
      some (.eth broadcast aabb .ipv4 []) := by decide
theorem test_decode_arpreq :
    decoded c0 [0x03, 0xAA, 0xBB, 0xCC, 0xDD, 0xEE, 0xFF, 0x0A, 0x00, 0x00, 0x01, 0x0A, 0x00, 0x00, 0x02] =
      some (.arpreq aabb ⟨10, 0, 0, 1⟩ ⟨10, 0, 0, 2⟩) := by decide
theorem test_decode_icmpreq :
    decoded c0 [0x04, 0x00, 0x01, 0x00, 0x01, 0x70, 0x69, 0x6E, 0x67] = some (.icmpreq 1 1 ping) := by decide

/-! ### Table words -/

theorem test_table_csum : decodeTableWord 8 0x01 = some (.csum []) := by decide
theorem test_table_eth : decodeTableWord 8 0x02 = some (.eth ⟨0, 0, 0, 0, 0, 0⟩ ⟨0, 0, 0, 0, 0, 0⟩ .ipv4 []) := by decide
theorem test_table_arpreq : decodeTableWord 8 0x03 = some (.arpreq ⟨0, 0, 0, 0, 0, 0⟩ ⟨0, 0, 0, 0⟩ ⟨0, 0, 0, 0⟩) := by
  decide
theorem test_table_icmpreq : decodeTableWord 8 0x04 = some (.icmpreq 0 0 []) := by decide
/-- V-I5, as the first command after reset under the open configuration. -/
theorem test_fetch_icmpreq :
    step (State.reset.withFetchWord 8 0x04) = .next { State.reset with
      status := 0x30, result := 0xF7FF, obuf := [0x08, 0x00, 0xF7, 0xFF, 0, 0, 0, 0], acc := 0x0800 } := by rfl

/-! ### Errors and their order (V-D1, V-D4, V-D8, V-D14, V-D19, V-D11) -/

theorem test_empty : answer c0 [] = resp 0x23 0 [] := by decide
theorem test_illegal_opcode : answer c0 [0x09, 0xAA, 0xBB] = resp 0x22 0 [] := by decide
theorem test_eth_one_short :
    answer c0 [0x02, 0x11, 0x11, 0x11, 0x11, 0x11, 0x11, 0x11, 0x11, 0x11, 0x11, 0x11, 0x11] = resp 0x23 0 [] := by decide
theorem test_length_before_selector :
    answer c4 [0x02, 0xFF, 0xFF, 0xFF, 0xFF, 0xFF, 0xFF, 0xAA, 0xBB, 0xCC, 0xDD, 0xEE, 0xFF, 0x07, 1, 2, 3, 4, 5] =
      resp 0x24 0 [] := by decide
theorem test_arpreq_one_long :
    answer c0 [0x03, 0xAA, 0xBB, 0xCC, 0xDD, 0xEE, 0xFF, 0x0A, 0, 0, 1, 0x0A, 0, 0, 2, 0] = resp 0x23 0 [] := by decide
theorem test_selector_no_preamble :
    answer c8 [0x02, 0xFF, 0xFF, 0xFF, 0xFF, 0xFF, 0xFF, 0xAA, 0xBB, 0xCC, 0xDD, 0xEE, 0xFF, 0xFF] =
      resp 0x21 0 [] := by decide

/-! ### The commands (V-C9, V-D26; V-E10, V-D12; V-ARP1, V-ARP4; V-I3, V-I6) -/

theorem test_csum_two_folds : answer c0 [0x01, 0xFF, 0xFF, 0xFF, 0xFF, 0x00, 0x01] = resp 0x30 0xFFFE [] := by decide
theorem test_csum_unbounded : answer c4 [0x01, 1, 2, 3, 4, 5, 6, 7, 8, 9] = resp 0x30 0xE6EB [] := by decide
theorem test_eth_preamble :
    answer c8 [0x02, 0x02, 0, 0, 0, 0, 0x02, 0x02, 0, 0, 0, 0, 0x01, 0x00, 0xDE, 0xAD] =
      resp 0x20 0 [0x55, 0x55, 0x55, 0x55, 0x55, 0x55, 0x55, 0xD5, 0x02, 0, 0, 0, 0, 0x02, 0x02, 0, 0, 0, 0, 0x01,
        0x08, 0x00, 0xDE, 0xAD] := by decide
theorem test_eth_payload_limit :
    answer c4 [0x02, 0xFF, 0xFF, 0xFF, 0xFF, 0xFF, 0xFF, 0xAA, 0xBB, 0xCC, 0xDD, 0xEE, 0xFF, 0x00, 1, 2, 3, 4] =
      resp 0x20 0 [0xFF, 0xFF, 0xFF, 0xFF, 0xFF, 0xFF, 0xAA, 0xBB, 0xCC, 0xDD, 0xEE, 0xFF, 0x08, 0x00, 1, 2, 3, 4] := by
  decide
theorem test_arpreq_document :
    answer c0 [0x03, 0xAA, 0xBB, 0xCC, 0xDD, 0xEE, 0xFF, 0x0A, 0, 0, 1, 0x0A, 0, 0, 2] =
      resp 0x20 0 [0, 1, 0x08, 0, 6, 4, 0, 1, 0xAA, 0xBB, 0xCC, 0xDD, 0xEE, 0xFF, 0x0A, 0, 0, 1, 0, 0, 0, 0, 0, 0,
        0x0A, 0, 0, 2] := by decide
theorem test_arpreq_configuration :
    answer cx [0x03, 0xAA, 0xBB, 0xCC, 0xDD, 0xEE, 0xFF, 0x0A, 0, 0, 1, 0x0A, 0, 0, 2] =
      resp 0x20 0 [0, 6, 0x86, 0xDD, 6, 4, 0, 1, 0xAA, 0xBB, 0xCC, 0xDD, 0xEE, 0xFF, 0x0A, 0, 0, 1, 0, 0, 0, 0, 0, 0,
        0x0A, 0, 0, 2] := by decide
theorem test_icmpreq_odd :
    answer c0 [0x04, 0x12, 0x34, 0xAB, 0xCD, 0x61, 0x62, 0x63] =
      resp 0x30 0x759B [0x08, 0x00, 0x75, 0x9B, 0x12, 0x34, 0xAB, 0xCD, 0x61, 0x62, 0x63] := by decide
theorem test_icmpreq_zero_checksum :
    answer c0 [0x04, 0xF7, 0xFF, 0x00, 0x00] = resp 0x30 0x0000 [0x08, 0, 0, 0, 0xF7, 0xFF, 0, 0] := by decide

/-- Program P5, run a: the hidden ACC and ODD, and the response, after ICMPREQ id=1, seq=2, payload="Hello". -/
theorem test_hidden_engine :
    step (fresh c0 [.issue [0x04, 0, 1, 0, 2, 0x48, 0x65, 0x6C, 0x6C, 0x6F]]) =
      .next { fresh c0 [] with
        status := 0x30, result := 0xD42A, acc := 0x2BD5, odd := true,
        obuf := [0x08, 0, 0xD4, 0x2A, 0, 1, 0, 2, 0x48, 0x65, 0x6C, 0x6C, 0x6F] } := by rfl

/-! ### The checksum (V-C7, V-C19, V-C21, V-E3, V-STALE, V-ODDOFF2) -/

theorem test_checksum_carry : checksum [0xFF, 0xFF, 0xFF] = 0x00FF := by decide
theorem test_checksum_odd_tail : checksum [0x80, 0x00, 0x80, 0x00, 0x80] = 0x7FFE := by decide
theorem test_fold_twice : fold 0xFFFFFFFF = 0xFFFF := by decide
theorem test_eacAdd_wrap : eacAdd 0x0001 0xFFFF = 0x0001 := by decide
theorem test_stale_field :
    checksum [0x08, 0x00, 0x3A, 0x7F, 0x00, 0x01, 0x00, 0x01, 0x70, 0x69, 0x6E, 0x67] = 0xDEAD := by decide

/-! ### STATUS (R27) -/

theorem test_status_values :
    [statusWord true false .ok, statusWord true true .ok, statusWord true false .errEtype,
      statusWord true false .errOpcode, statusWord true false .errFormat, statusWord true false .errLength] =
      [0x20, 0x30, 0x21, 0x22, 0x23, 0x24] := by decide

/-! ### The assembler (S4, S5, V-ARP3, V-D10, V-I1) -/

theorem test_asm_icmpreq :
    assemble [] "ICMPREQ id=1, seq=0x1, payload=\"ping\" ; S7".toList =
      .ok (.command ([0x04, 0, 1, 0, 1] ++ ping)) := by rfl
theorem test_asm_arpreq :
    assemble [] "ARPREQ tip=192.168.1.1, lmac=020000000001, lip=192.168.1.1".toList =
      .ok (.command [0x03, 0x02, 0, 0, 0, 0, 0x01, 0xC0, 0xA8, 1, 1, 0xC0, 0xA8, 1, 1]) := by rfl
theorem test_asm_raw_selector :
    assemble [] "ETH dst=ffffffffffff, src=AABBCCDDEEFF, type=#3, payload=01 02".toList =
      .ok (.command [0x02, 0xFF, 0xFF, 0xFF, 0xFF, 0xFF, 0xFF, 0xAA, 0xBB, 0xCC, 0xDD, 0xEE, 0xFF, 0x03, 1, 2]) := by
  rfl
theorem test_asm_bad_mac :
    assemble [] "ARPREQ lmac=zz:zz, lip=10.0.0.1, tip=10.0.0.2".toList = .error .invalidAddress := by rfl
theorem test_asm_ipv6_text : ipOf "::1".toList = none := by decide

/-! ### Witnesses: for each obligation with hypotheses, a state and operands that meet them -/

/-- A state far from reset: mid-command, with output, flags and observations. -/
def used (script : List HostAction) : State where
  status := 0x30
  result := 0xF7FD
  obuf := [0x08, 0x00, 0xF7, 0xFD, 0x00, 0x01, 0x00, 0x01]
  acc := 0x0802
  odd := true
  dbuf := [0x01]
  seq := .busy
  config := c4
  script := script
  hostSaw := [.obufByte 0 0x08]

def ethD (sel : Byte) (payload : List Byte) : List Byte :=
  [0x02, 0xFF, 0xFF, 0xFF, 0xFF, 0xFF, 0xFF, 0xAA, 0xBB, 0xCC, 0xDD, 0xEE, 0xFF, sel] ++ payload
def arpD : List Byte := [0x03, 0xAA, 0xBB, 0xCC, 0xDD, 0xEE, 0xFF, 0x0A, 0, 0, 1, 0x0A, 0, 0, 2]

theorem witness_ResetGivesEveryRegisterItsValue : (used [.reset, .read]).script = .reset :: [.read] := rfl
theorem witness_ResetInMidCommandIsAReset :
    (used [.resetMidCommand [0x02, 0xFF]]).script = .resetMidCommand [0x02, 0xFF] :: [] := rfl
/-- A read before the next command (R53's own case), and two reads in a row. -/
theorem witness_ReadReturnsTheResponseAndChangesNothing :
    (used [.read, .issue [0x01]]).script = .read :: [.issue [0x01]] ∧
    (used [.read, .read, .reset]).script = .read :: [.read, .reset] ∧
    [HostAction.read, .reset] = .read :: [.reset] := by decide
theorem witness_ObufIsReadableExactlyBelowOlen :
    (used [.readObuf 7]).script = .readObuf 7 :: [] ∧ 7 < (used [.readObuf 7]).obuf.length ∧
    (used [.readObuf 8]).script = .readObuf 8 :: [] ∧ (used [.readObuf 8]).obuf.length ≤ 8 := by decide
theorem witness_BlockWaitsWhenTheHostIsDone : (used []).script = [] := rfl

theorem witness_DecodeOfEncodeGivesTheCommandBack :
    Instr.wellFormed c4 (.eth broadcast aabb .arp [1, 2, 3, 4]) = true ∧
    Instr.wellFormed c4 (.icmpreq 0xFFFF 0 []) = true ∧ Instr.wellFormed c4 (.arpreq aabb ⟨0, 0, 0, 0⟩ ⟨1, 2, 3, 4⟩) = true ∧
    Instr.wellFormed c4 (.csum []) = true := by decide
theorem witness_DecodeAcceptsOnlyTheDescriptorOfTheCommand :
    decode c4 (ethD 0x02 [1, 2, 3, 4]) = .ok (.eth broadcast aabb .arp [1, 2, 3, 4]) := by rfl
theorem witness_WrittenOutDescriptorsDecode : 4 ≤ c4.payloadMax := by decide

/-- One descriptor for each branch, at the boundaries: empty, opcodes 0 and 5, one byte short and one long, one payload
byte over, selectors 3 and 2. -/
theorem witness_FirstFailingTestGivesTheCode :
    (∀ d ∈ ([[], [0x00], [0x05], (ethD 0 []).dropLast, arpD.dropLast, arpD ++ [0], ethD 0x03 [1, 2, 3, 4, 5],
        ethD 0x03 [1, 2, 3, 4], ethD 0x02 [1, 2, 3, 4], [0x04, 0, 0, 0], [0x04, 0, 0, 0, 0, 1, 2, 3, 4, 5]] : List (List Byte)),
      (used [.issue d]).script = .issue d :: []) ∧
    (ethD 0 []).dropLast.length = 13 ∧ arpD.length = 15 ∧ (ethD 0x03 [1, 2, 3, 4, 5]).length - 14 = c4.payloadMax + 1 := by
  decide
/-- The branch taken at each of those boundaries. -/
theorem witness_EachErrorIsRaisedExactlyWhenItsRuleSays :
    ([[], [0x00], [0x05], (ethD 0 []).dropLast, arpD.dropLast, arpD ++ [0], ethD 0x03 [1, 2, 3, 4, 5],
        ethD 0x03 [1, 2, 3, 4], ethD 0x02 [1, 2, 3, 4], [0x04, 0, 0, 0], [0x04, 0, 0, 0, 0, 1, 2, 3, 4, 5]] :
      List (List Byte)).map (fun d => (answer c4 d).map (·.status)) =
    [some 0x23, some 0x22, some 0x22, some 0x23, some 0x23, some 0x23, some 0x24, some 0x21, some 0x20, some 0x23,
      some 0x24] := by decide
theorem witness_CsumNeverFails : (used [.issue (0x01 :: [0xFF])]).script = .issue (0x01 :: [0xFF]) :: [] := rfl
theorem witness_DbufCapacityIsEnoughAndNeeded :
    decode c4 (ethD 0 [1, 2, 3, 4]) = .ok (.eth broadcast aabb .ipv4 [1, 2, 3, 4]) ∧
    byteAt (ethD 0 [1, 2, 3, 4]) 0 ≠ 0x01 ∧ (ethD 0 [1, 2, 3, 4]).length = c4.dbufCapacity := ⟨rfl, by decide, by decide⟩

theorem witness_CsumComputesTheChecksum : (used [.issue (0x01 :: [0xFF])]).script = .issue (0x01 :: [0xFF]) :: [] := rfl
theorem witness_EthBuildsTheFrame : [1, 2, 3, 4].length ≤ (used []).config.payloadMax := by decide
theorem witness_IcmpreqBuildsTheMessage : ([] : List Byte).length ≤ (used []).config.payloadMax := by decide
theorem witness_OversizePayloadIsErrLength :
    (used []).config.payloadMax < [1, 2, 3, 4, 5].length ∧
    (Instr.eth broadcast aabb .arp [1, 2, 3, 4, 5] = .eth broadcast aabb .arp [1, 2, 3, 4, 5] ∨
      Instr.eth broadcast aabb .arp [1, 2, 3, 4, 5] = .icmpreq 0 0 [1, 2, 3, 4, 5]) := by decide
/-- A command that computes no checksum: the inner hypothesis CV = 0 is met. -/
theorem witness_OnlyChecksumCommandsTouchTheEngine :
    (used [.issue arpD]).script = .issue arpD :: [] ∧
    (match step (used [.issue arpD]) with
      | .next t => !t.cv && t.acc == 0x0802 && t.odd
      | _ => false) = true := by decide
theorem witness_MemWriteTouchesOnlyItsBytes : 6 + [0xAB, 0xCD].length ≤ (used []).olen := by decide

theorem witness_EthDescriptorBecomesTheFrame :
    (used [.issue (ethD 0x02 [1])]).script = .issue (ethD 0x02 [1]) :: [] ∧ byteAt (ethD 0x02 [1]) 0 = 0x02 ∧
    14 ≤ (ethD 0x02 [1]).length ∧ (ethD 0x02 [1]).length - 14 ≤ (used []).config.payloadMax ∧
    byteAt (ethD 0x02 [1]) 13 = EtherName.arp.sel := by decide
theorem witness_ArpreqDescriptorBecomesTheRequest :
    (used [.issue arpD]).script = .issue arpD :: [] ∧ byteAt arpD 0 = 0x03 ∧ arpD.length = 15 := by decide
theorem witness_IcmpreqDescriptorBecomesAMessageThatVerifies :
    (used [.issue [0x04, 0, 1, 0, 1]]).script = .issue [0x04, 0, 1, 0, 1] :: [] ∧
    byteAt [0x04, 0, 1, 0, 1] 0 = 0x04 ∧ 5 ≤ ([0x04, 0, 1, 0, 1] : List Byte).length ∧
    ([0x04, 0, 1, 0, 1] : List Byte).length - 5 ≤ (used []).config.payloadMax := by decide

theorem witness_StepRunsTheDecodedCommand :
    (used [.issue arpD]).script = .issue arpD :: [] ∧
    decode (used [.issue arpD]).config arpD = .ok (.arpreq aabb ⟨10, 0, 0, 1⟩ ⟨10, 0, 0, 2⟩) := ⟨rfl, rfl⟩
theorem witness_FailingDescriptorLeavesOnlyTheErrorResponse :
    (used [.issue [0x09]]).script = .issue [0x09] :: [] ∧ decode (used [.issue [0x09]]).config [0x09] = .error .errOpcode :=
  ⟨rfl, rfl⟩
theorem witness_StatusFieldsAfterACommand : (used [.issue [0x01]]).script = .issue [0x01] :: [] := rfl
theorem witness_StepGoesOnExactlyWithinTheContract :
    (used [.readObuf 7]).hostKeepsContract = true ∧ (used [.readObuf 8]).hostKeepsContract = false := by decide
theorem witness_NoStepChangesTheConfiguration : step (used [.reset]) = .next (used []).resetAction := by rfl
theorem witness_ResponseDependsOnConfigurationAndDescriptorOnly :
    (used [.issue arpD, .read]).config = (fresh c4 [.issue arpD]).config ∧
    (used [.issue arpD, .read]).script = .issue arpD :: [.read] ∧ (fresh c4 [.issue arpD]).script = .issue arpD :: [] :=
  ⟨rfl, rfl, rfl⟩
/-- Each kind of last action, with byte-wise reads in bounds, where both runs answer a next state; and a run that is
refused, its read after an empty response lying at OLEN. -/
theorem witness_RunEndsInTheResponseOfItsLastCommand :
    (used ([.readObuf 7, .reset] ++ .issue arpD :: [.read, .readObuf 27])).script =
      [.readObuf 7, .reset] ++ .issue arpD :: [.read, .readObuf 27] ∧
    (∀ a ∈ [HostAction.read, .readObuf 27], a = .read ∨ ∃ i, a = .readObuf i) ∧
    (used ([.issue [0x01]] ++ .reset :: [.read])).script = [.issue [0x01]] ++ .reset :: [.read] ∧
    (used ([.readObuf 7] ++ .resetMidCommand [2] :: [.read])).script =
      [.readObuf 7] ++ .resetMidCommand [2] :: [.read] ∧
    (match Host.Core.run Sys2Proof.core 5 (used [.readObuf 7, .reset, .issue arpD, .read, .readObuf 27]) with
      | .next t => State.status t == 0x20
      | _ => false) = true ∧
    (match Host.Core.run Sys2Proof.core 3 (used [.readObuf 7, .resetMidCommand [2], .read]) with
      | .next t => State.status t == 0x00
      | _ => false) = true ∧
    (match Host.Core.run Sys2Proof.core 2 (used [.reset, .readObuf 0]) with
      | .refused (.obufBeyondOlen 0 0) => true
      | _ => false) = true := by
  refine ⟨rfl, by simp, rfl, rfl, by rfl, by rfl, by rfl⟩
/-- A consistent state with a step: the state after V-D21 (CV = 1, a message in OBUF). -/
theorem witness_StepKeepsTheBlockConsistent :
    ∃ s t : State, s.Consistent ∧ s.obuf ≠ [] ∧ step s = .next t := by
  refine ⟨{ used [.read] with odd := false, dbuf := [], seq := .idle }, _, ?_, by decide, rfl⟩
  constructor <;> decide
theorem witness_StatusFieldsReadBack : (used []).status = statusWord true true .ok := by decide

theorem witness_WordsPairBytesFromTheFirst :
    1 < (words [0x12, 0x34, 0x56]).length ∧ 2 * 0 + 1 < ([0x12, 0x34, 0x56] : List Byte).length ∧
    2 * 1 + 1 = ([0x12, 0x34, 0x56] : List Byte).length := by decide
theorem witness_FoldIsTheEndAroundCarryLoop : 0xFFFF ≤ 0xFFFF ∧ 0x10000 > 0xFFFF := by decide
theorem witness_FoldHasItsClosedForm : 1 ≤ 65535 := by decide
theorem witness_EacAddIsEndAroundCarryAddition :
    (0xFFFE : Word).toNat + (0x0001 : Word).toNat ≤ 0xFFFF ∧ (0xFFFF : Word).toNat + (0x0001 : Word).toNat > 0xFFFF ∧
    1 ≤ (0x0001 : Word).toNat := by decide
theorem witness_ClearAndAbsorbChangeAccAndOdd : State.reset.odd = false ∧ (used []).odd = true := by decide
theorem witness_WordOrderDoesNotMatter :
    [((0x12 : Byte), (0x34 : Byte)), (0x56, 0x78)].Perm [(0x56, 0x78), (0x12, 0x34)] := List.Perm.swap _ _ _
theorem witness_ChecksumLawsOfConcatenation :
    ([0xFF, 0xFF] : List Byte).length % 2 = 0 ∧ 2 % 2 = 0 ∧ 2 + 1 < ([0, 1, 2, 3] : List Byte).length := by decide
/-- V-ID2: the smallest sequence, the field being all of it. -/
theorem witness_FilledInChecksumVerifies : 0 % 2 = 0 ∧ 0 + 1 < ([0x00, 0x00] : List Byte).length := by decide
/-- V-STALE, and the stale values 0x0000 and 0xFFFF. -/
theorem witness_StaleFieldShowsInTheVerification :
    2 % 2 = 0 ∧ 2 + 1 < ([0x08, 0x00, 0xDE, 0xAD] : List Byte).length ∧ (0xDEAD : Word) ≠ 0x0000 ∧ (0xDEAD : Word) ≠ 0xFFFF ∧
    checksum (overwrite [0x08, 0, 0, 0] 2 (be16 (checksum (overwrite [0x08, 0, 0, 0] 2 (be16 0x0000))))) = 0x0000 := by
  decide
/-- V-ID1, V-ACC2 and V-ACC1: s in 1 to 0xFFFE, s = 0, s = 0xFFFF. -/
theorem witness_FieldValuesThatVerify :
    2 % 2 = 0 ∧ 2 + 1 < ([0, 0, 0, 0] : List Byte).length ∧
    fold (rawSum (overwrite [0x08, 0, 0, 0] 2 [0x00, 0x00])) = 0x0800 ∧
    fold (rawSum (overwrite [0, 0, 0, 0] 2 [0x00, 0x00])) = 0 ∧
    fold (rawSum (overwrite [0x08, 0, 0, 0, 0xF7, 0xFF, 0, 0] 2 [0x00, 0x00])) = 0xFFFF := by decide
theorem witness_MacOperandIsTwelveHexDigits :
    macOf "aabbccddeeff".toList = some aabb ∧ aabb.bytes[5]? = some 0xFF ∧ macOf "aabbccddeef".toList = none := by decide
theorem witness_VerifyPassesExactlyOnZeroChecksum : (fresh c0 []).script = [] := rfl

end Sys2Proof.Tests
end

section
/-! PROOFS. Reset (spec/10_state.md R36, spec/70_reset_and_hazards.md R160). -/
namespace Sys2Proof.Machine

section
variable (s : State)

/-! The fields of STATUS, OLEN and readiness after a reset action (R22, R26, R29). -/

@[simp] theorem State.resetAction_code : s.resetAction.code = some .ok := rfl
@[simp] theorem State.resetAction_cv : s.resetAction.cv = false := by simp [State.cv]
@[simp] theorem State.resetAction_done : s.resetAction.done = false := by simp [State.done]
@[simp] theorem State.resetAction_reservedField : s.resetAction.reservedField = 0 := by simp [State.reservedField]
@[simp] theorem State.resetAction_olen : s.resetAction.olen = 0 := rfl
@[simp] theorem State.resetAction_ready : s.resetAction.ready = true := rfl

end

/-- `State.reset` is itself the outcome of a reset action, so what holds after every reset action holds of it. -/
theorem State.resetAction_reset : State.reset.resetAction = State.reset := rfl

theorem step_reset {s : State} {rest : List HostAction} (h : s.script = .reset :: rest) :
    step s = .next { s with script := rest }.resetAction := by
  rw [step_eq_act h, State.act]

/-- Settles O1: both states the statement speaks of are outcomes of a reset action, whose registers are known. -/
theorem resetGivesEveryRegisterItsValue : Obligations.ResetGivesEveryRegisterItsValue := by
  intro s rest h
  refine ⟨_, step_reset h, by simp, by simp, by simp, by simp, ?_⟩
  intro u hu
  obtain ⟨v, rfl⟩ : ∃ v : State, u = v.resetAction := by
    obtain rfl | rfl := hu
    · exact ⟨_, rfl⟩
    · exact ⟨_, State.resetAction_reset.symm⟩
  simp

end Sys2Proof.Machine
end

section
/-! PROOFS. Folding, and the checksum engine against the checksum function (spec/40_checksum.md R92 to R97). -/
namespace Sys2Proof

theorem fold_le (n : Nat) : fold n ≤ 0xFFFF := foldPasses_le n n le_rfl

theorem fold_residue (n : Nat) : fold n % 65535 = n % 65535 := (foldPasses_residue n n).1

theorem fold_eq_zero_iff (n : Nat) : fold n = 0 ↔ n = 0 := (foldPasses_residue n n).2

/-- A folded sum fits a word, so nothing is lost when ACC holds it. -/
@[simp] theorem toNat_ofNat_fold (n : Nat) : (BitVec.ofNat 16 (fold n)).toNat = fold n := by
  have := fold_le n
  rw [BitVec.toNat_ofNat]
  omega

/-- Folding after each addition and folding once at the end agree: both sides are words with the same residue modulo
65535 that are zero together (R98). -/
theorem eacAdd_ofNat_fold (n : Nat) (v : Word) :
    eacAdd (BitVec.ofNat 16 (fold n)) v = BitVec.ofNat 16 (fold (n + v.toNat)) := by
  have := v.isLt
  have := fold_le n
  have := fold_residue n
  have := fold_eq_zero_iff n
  have := fold_residue (n + v.toNat)
  have := fold_eq_zero_iff (n + v.toNat)
  apply BitVec.eq_of_toNat_eq
  rw [toNat_eacAdd, toNat_ofNat_fold, toNat_ofNat_fold]
  apply eq_of_residue
  · split <;> omega
  · exact fold_le _
  · split <;> omega
  · split <;> omega

/-- The complement of a checksum is the folded sum it was made of (R93). -/
theorem not_checksum (bs : List Byte) : ~~~ checksum bs = BitVec.ofNat 16 (fold (rawSum bs)) :=
  BitVec.not_not

namespace Machine

/-- At an even offset, absorbing bytes adds their raw sum to the sum that ACC holds folded. The induction takes the
bytes in pairs, as `words` does. -/
theorem State.absorbAll_acc_of_fold (s : State) (n : Nat) (bs : List Byte) (hacc : s.acc = BitVec.ofNat 16 (fold n))
    (hodd : s.odd = false) : (s.absorbAll bs).acc = BitVec.ofNat 16 (fold (n + rawSum bs)) := by
  induction bs using words.induct generalizing s n with
  | case1 => simpa using hacc
  | case2 h => simp [hacc, hodd, eacAdd_ofNat_fold, toNat_u16]
  | case3 h l rest ih =>
    have hpair : ((s.absorb h).absorb l).acc = BitVec.ofNat 16 (fold (n + (h.toNat * 256 + l.toNat))) := by
      simp [hacc, hodd, eacAdd_ofNat_fold, toNat_u16, Nat.add_assoc]
    have hrest := ih _ _ hpair (by simp [hodd])
    simpa [Nat.add_assoc] using hrest

/-- R97: from `clear`, the engine ends with the folded raw sum in ACC, the parity of the length in ODD, and everything
else as it was. -/
theorem State.clear_absorbAll (s : State) (bs : List Byte) :
    s.clear.absorbAll bs = { s with acc := ~~~ checksum bs, odd := decide (bs.length % 2 = 1) } := by
  have hacc : (s.clear.absorbAll bs).acc = ~~~ checksum bs := by
    rw [not_checksum, s.clear.absorbAll_acc_of_fold 0 bs rfl rfl, Nat.zero_add]
  rw [State.absorbAll_eq, hacc, State.clear_odd, Bool.false_xor]
  rfl

end Machine
end Sys2Proof
end

section
/-! PROOFS. What ETH, ARPREQ and ICMPREQ build (spec/30_encoding.md R71 to R73, spec/43_icmp.md R132). -/
namespace Sys2Proof.Machine

theorem exec_eth_of_fits {s : State} {payload : List Byte} (h : payload.length ≤ s.config.payloadMax)
    (dmac smac : Mac) (name : EtherName) :
    exec (.eth dmac smac name payload) s = .next (s.emitFrame dmac smac name payload).respondPlain :=
  if_neg (Nat.not_lt.mpr h)

theorem exec_arpreq (lmac : Mac) (lip tip : Ip) (s : State) :
    exec (.arpreq lmac lip tip) s = .next (s.emitArpRequest lmac lip tip).respondPlain := rfl

theorem exec_icmpreq_of_fits {s : State} {payload : List Byte} (h : payload.length ≤ s.config.payloadMax)
    (id seqno : Word) :
    exec (.icmpreq id seqno payload) s = .next (s.emitEchoRequest id seqno payload).fillChecksum :=
  if_neg (Nat.not_lt.mpr h)

/-- The rest of R130 in terms of the checksum function: bytes 2 and 3 take the checksum of the whole output. -/
theorem State.fillChecksum_eq (s : State) :
    s.fillChecksum = { s with
      obuf := overwrite s.obuf 2 (be16 (checksum s.obuf)), result := checksum s.obuf, status := 0x30,
      acc := ~~~ checksum s.obuf, odd := decide (s.obuf.length % 2 = 1), seq := .idle, dbuf := [] } := by
  simp only [State.fillChecksum, State.clear_absorbAll, State.finish_eq, BitVec.not_not]
  rfl

/-- Settles O14: R110's frame, emitted into an empty OBUF, is R71's, and the plain response leaves ACC and ODD. -/
theorem ethBuildsTheFrame : Obligations.EthBuildsTheFrame := by
  intro dmac smac name payload s hfits
  refine ⟨_, exec_eth_of_fits hfits dmac smac name, ?_, ?_⟩
  · rw [State.emitFrame_eq]; rfl
  · simp +arith [State.emitFrame_eq, Config.preLen]

/-- Settles O15: R120's request, emitted into an empty OBUF, is R72's 28 bytes. -/
theorem arpreqBuildsTheRequest : Obligations.ArpreqBuildsTheRequest := by
  intro lmac lip tip s
  refine ⟨_, exec_arpreq lmac lip tip s, ?_, ?_⟩
  · rw [State.emitArpRequest_eq]; rfl
  · simp [State.emitArpRequest_eq]

/-- Settles O16: the engine's sum of the message with a zero field is its checksum (`State.fillChecksum_eq`); it goes
into bytes 2 and 3 alone, which `overwrite` reaches by computation, so zeroing them again gives back
the message summed. -/
theorem icmpreqBuildsTheMessage : Obligations.IcmpreqBuildsTheMessage := by
  intro id seqno payload s hfits c
  have hlen : ([0x08, 0x00, 0x00, 0x00] ++ be16 id ++ be16 seqno ++ payload).length = 8 + payload.length := by
    simp +arith
  have hodd : (8 + payload.length) % 2 = payload.length % 2 := by omega
  refine ⟨_, exec_icmpreq_of_fits hfits id seqno, ?_, ?_, ?_⟩
  · rw [State.fillChecksum_eq, State.emitEchoRequest_eq]
    simp only [hlen, hodd]
    rfl
  · simp only [State.fillChecksum_eq, State.emitEchoRequest_eq, State.olen_eq, overwrite_length, hlen]
  · rw [State.fillChecksum_eq, State.emitEchoRequest_eq]
    rfl

end Sys2Proof.Machine
end

section
/-! PROOFS. The words of a byte sequence, the folding loop, the checksum and end-around-carry addition
(spec/40_checksum.md R90 to R94). -/
namespace Sys2Proof

/-! ### Words (R90) -/

theorem words_length (b : List Byte) : (words b).length = (b.length + 1) / 2 := by
  induction b using words.induct with
  | case1 => rfl
  | case2 h => simp [words]
  | case3 h l rest ih => simp only [words, List.length_cons, ih]; omega

theorem byteAt_of_length_le {d : List Byte} {i : Nat} (h : d.length ≤ i) : byteAt d i = 0x00 := by
  simp [byteAt, h]

/-- Word i by offset; past the end `byteAt` reads the virtual low byte 0x00 of an odd length. -/
theorem words_getElem? {b : List Byte} {i : Nat} (hi : 2 * i < b.length) :
    (words b)[i]? = some (u16 (byteAt b (2 * i)) (byteAt b (2 * i + 1))) := by
  induction b using words.induct generalizing i with
  | case1 => simp at hi
  | case2 h =>
    obtain rfl : i = 0 := by rw [List.length_singleton] at hi; omega
    rfl
  | case3 h l rest ih =>
    cases i with
    | zero => rfl
    | succ i => exact ih (by simp only [List.length_cons] at hi; omega)

/-- Settles O35: word i is made of the bytes at 2i and 2i+1 (`words_getElem?`), and the second of them reads 0x00 when
it is past the end. -/
theorem wordsPairBytesFromTheFirst : Obligations.WordsPairBytesFromTheFirst := by
  intro b
  refine ⟨words_length b, fun i hi => ?_⟩
  have hlt : 2 * i < b.length := by rw [words_length] at hi; omega
  refine ⟨_, words_getElem? hlt, fun _ => toNat_u16 _ _, fun hend => ?_⟩
  simp [toNat_u16, byteAt_of_length_le hend.ge]

/-! ### Folding and the checksum (R92, R93)

Both equations of the loop hold because a number within 16 bits is determined by its residue modulo 65535 and by
whether it is zero (`eq_of_residue`), and the loop keeps both. -/

theorem fold_of_le {n : Nat} (h : n ≤ 0xFFFF) : fold n = n :=
  eq_of_residue (fold_le n) h (fold_residue n) (fold_eq_zero_iff n)

theorem fold_of_gt {n : Nat} (h : n > 0xFFFF) : fold n = fold (n % 65536 + n / 65536) := by
  obtain ⟨hresidue, hpos, -⟩ := fold_pass n h
  apply eq_of_residue (fold_le _) (fold_le _)
  · rw [fold_residue, fold_residue, hresidue]
  · rw [fold_eq_zero_iff, fold_eq_zero_iff]; omega

/-- Settles O37: one pass makes a number beyond 16 bits smaller (`fold_pass`) and keeps its fold (`fold_of_gt`). -/
theorem foldIsTheEndAroundCarryLoop : Obligations.FoldIsTheEndAroundCarryLoop := by
  intro n
  refine ⟨fold_le n, fold_of_le, fun h => ⟨?_, fold_of_gt h⟩⟩
  obtain ⟨-, -, hsmaller⟩ := fold_pass n h
  exact hsmaller

theorem toNat_checksum (b : List Byte) : (checksum b).toNat = 0xFFFF - fold (rawSum b) := by
  rw [checksum, BitVec.toNat_not, toNat_ofNat_fold]

/-- Settles O39: the complement is the definition; that it is 0xFFFF minus the folded sum needs that the folded sum
fits a word (`toNat_ofNat_fold`). -/
theorem checksumIsTheComplementOfTheFoldedSum : Obligations.ChecksumIsTheComplementOfTheFoldedSum :=
  fun b => ⟨rfl, toNat_checksum b⟩

/-! ### End-around-carry addition (R94) -/

theorem eacAdd_comm (a v : Word) : eacAdd a v = eacAdd v a := by
  simp only [eacAdd, Nat.add_comm]

@[simp] theorem eacAdd_zero (a : Word) : eacAdd a 0x0000 = a := by
  have := a.isLt
  have hzero : (0x0000 : Word).toNat = 0 := rfl
  apply BitVec.eq_of_toNat_eq
  rw [toNat_eacAdd, hzero, if_pos] <;> omega

@[simp] theorem zero_eacAdd (a : Word) : eacAdd 0x0000 a = a := by
  rw [eacAdd_comm, eacAdd_zero]

/-- 0xFFFF is the other zero of one's-complement arithmetic: adding it wraps back to a non-zero `a`. -/
theorem eacAdd_allOnes {a : Word} (h : 1 ≤ a.toNat) : eacAdd a 0xFFFF = a := by
  have hones : (0xFFFF : Word).toNat = 0xFFFF := rfl
  apply BitVec.eq_of_toNat_eq
  rw [toNat_eacAdd, hones, if_neg] <;> omega

/-- Settles O40: the two ranges are the two cases of `toNat_eacAdd`, and the corner sums are those of 0x0000 and
0xFFFF with any word. -/
theorem eacAddIsEndAroundCarryAddition : Obligations.EacAddIsEndAroundCarryAddition := by
  refine ⟨fun a v => ⟨fun hfits => ?_, fun hwraps => ?_⟩, fun a => ⟨eacAdd_zero a, zero_eacAdd a⟩,
    fun a => eacAdd_allOnes, zero_eacAdd _, eacAdd_allOnes (by decide)⟩
  · rw [toNat_eacAdd, if_pos hfits]
  · rw [toNat_eacAdd, if_neg (by omega)]
    omega

end Sys2Proof
end

section
/-! PROOFS. The engine's two operations and the CSUM command (spec/40_checksum.md R95, R100). -/
namespace Sys2Proof

/-! ### The bytes as words, as R95 adds them -/

theorem u16_high (b : Byte) : u16 b 0x00 = BitVec.ofNat 16 (b.toNat * 256) := by
  simp [u16]

theorem u16_low (b : Byte) : u16 0x00 b = BitVec.ofNat 16 b.toNat := by
  simp [u16]

/-! ### All-zero data (R100's corner cases) -/

@[simp] theorem rawSum_zeros (k : Nat) : rawSum (zeros k) = 0 := by
  induction k using Nat.twoStepInduction with
  | zero => rfl
  | one => rfl
  | more k ih _ =>
    have hpair : zeros (k + 2) = 0x00 :: 0x00 :: zeros k := rfl
    rw [hpair, rawSum_cons_cons, ih]
    rfl

theorem checksum_zeros (k : Nat) : checksum (zeros k) = 0xFFFF := by
  rw [checksum, rawSum_zeros]
  rfl

/-! ### Decoding and running CSUM (R67, R100), and the engine's operations (R95) -/

/-- A descriptor that begins with 0x01 is a CSUM of the bytes after it, whatever they are. -/
theorem decode_csum (cfg : Config) (data : List Byte) : decode cfg (0x01 :: data) = .ok (.csum data) := by
  simp [decode, Opcode.ofByte, Opcode.fixedBytes, Opcode.bounded, decodeFields, payloadOf]

namespace Machine

theorem State.absorb_of_even {s : State} (h : s.odd = false) (b : Byte) :
    s.absorb b = { s with acc := eacAdd s.acc (BitVec.ofNat 16 (b.toNat * 256)), odd := true } := by
  rw [State.absorb, if_neg (by simp [h]), u16_high]

theorem State.absorb_of_odd {s : State} (h : s.odd = true) (b : Byte) :
    s.absorb b = { s with acc := eacAdd s.acc (BitVec.ofNat 16 b.toNat), odd := false } := by
  rw [State.absorb, if_pos h, u16_low]

/-- Settles O41: `clear` by its definition, `absorb` by the two cases of ODD. -/
theorem clearAndAbsorbChangeAccAndOdd : Obligations.ClearAndAbsorbChangeAccAndOdd :=
  fun _ b => ⟨rfl, fun heven => State.absorb_of_even heven b, fun hodd => State.absorb_of_odd hodd b⟩

/-- CSUM in terms of the checksum function, from every state. -/
theorem exec_csum (data : List Byte) (s : State) :
    exec (.csum data) s = .next { s with
      result := checksum data, obuf := [], status := 0x30, acc := ~~~ checksum data,
      odd := decide (data.length % 2 = 1), seq := .idle, dbuf := [] } := by
  simp only [exec, execCsum, State.clear_absorbAll, State.finish_eq, BitVec.not_not]
  rfl

theorem step_issue {s : State} {d : List Byte} {rest : List HostAction} (h : s.script = .issue d :: rest) :
    step s = State.issue { s with script := rest } d := by
  rw [step_eq_act h, State.act]

/-- A descriptor that decodes is taken and its command run. -/
theorem State.issue_of_decode {s : State} {d : List Byte} {i : Instr} (h : decode s.config d = .ok i) :
    s.issue d = exec i (s.takeDescriptor d) := by
  rw [State.issue, h]

/-- The step that issues a descriptor beginning with 0x01: taking it leaves only DBUF and SEQ, which CSUM sets. -/
theorem step_csum {s : State} {data : List Byte} {rest : List HostAction}
    (h : s.script = .issue (0x01 :: data) :: rest) :
    step s = .next { s with
      script := rest, result := checksum data, obuf := [], status := 0x30, acc := ~~~ checksum data,
      odd := decide (data.length % 2 = 1), seq := .idle, dbuf := [] } := by
  rw [step_issue h, State.issue_of_decode (decode_csum _ data), exec_csum]
  rfl

/-- Settles O13: the engine computes the checksum (`exec_csum`), every descriptor that begins with 0x01 runs it
(`step_csum`), and a zero raw sum gives 0xFFFF (`checksum_zeros`). -/
theorem csumComputesTheChecksum : Obligations.CsumComputesTheChecksum := by
  intro data
  exact ⟨fun s => ⟨_, exec_csum data s, rfl⟩, fun _ _ h => ⟨_, step_csum h, rfl⟩,
    checksum_zeros 0, checksum_zeros, by decide, by decide⟩

end Machine
end Sys2Proof
end

section
/-! PROOFS. What an ARPREQ descriptor becomes (spec/42_arp.md R121), over facts about reading operands and words back
from a byte string (spec/20_memory.md R43, R44). -/
namespace Sys2Proof

/-! ### Reading a byte string -/

theorem memRead_succ {d : List Byte} {addr : Nat} (h : addr < d.length) (n : Nat) :
    memRead d addr (n + 1) = byteAt d addr :: memRead d (addr + 1) n := by
  rw [memRead, List.drop_eq_getElem_cons h, List.take_succ_cons, byteAt_of_lt h, memRead]

/-- Within the descriptor, the 6-byte operand at `addr` is the byte string there. -/
theorem bytes_macAt {d : List Byte} {addr : Nat} (h : addr + 6 ≤ d.length) :
    (macAt d addr).bytes = memRead d addr 6 := by
  iterate 6 rw [memRead_succ (by omega)]
  rfl

/-- Within the descriptor, the 4-byte operand at `addr` is the byte string there. -/
theorem bytes_ipAt {d : List Byte} {addr : Nat} (h : addr + 4 ≤ d.length) :
    (ipAt d addr).bytes = memRead d addr 4 := by
  iterate 4 rw [memRead_succ (by omega)]
  rfl

/-- The two bytes of a word read back as the word. -/
theorem memRead16_be16 (w : Word) : memRead16 (be16 w) 0 = w := by
  have := w.isLt
  apply BitVec.eq_of_toNat_eq
  simp only [be16_eq, memRead16, byteAt_cons_zero, byteAt_cons_succ, toNat_u16, BitVec.toNat_ofNat]
  omega

/-! ### Decoding and running ARPREQ (R64, R67, R120) -/

/-- A 15-byte descriptor with first byte 0x03 passes every test of R67, and its operands are read from 1, 7 and 11. -/
theorem decode_arpreq (cfg : Config) {d : List Byte} (hop : byteAt d 0 = 0x03) (hlen : d.length = 15) :
    decode cfg d = .ok (.arpreq (macAt d 1) (ipAt d 7) (ipAt d 11)) := by
  cases d with
  | nil => simp at hlen
  | cons first operands =>
    obtain rfl : first = 0x03 := hop
    have hoperands : operands.length = 14 := by simpa using hlen
    simp [decode, Opcode.ofByte, Opcode.fixedBytes, Opcode.bounded, decodeFields, hoperands]

namespace Machine

/-- Settles O22: the descriptor decodes to the ARPREQ of its own bytes (`decode_arpreq`), whose 28 output bytes are
known (`arpreqBuildsTheRequest`); each field is then read where it was written. -/
theorem arpreqDescriptorBecomesTheRequest : Obligations.ArpreqDescriptorBecomesTheRequest := by
  intro s d rest hscript hop hlen
  obtain ⟨t, hexec, hregs, holen⟩ := arpreqBuildsTheRequest (macAt d 1) (ipAt d 7) (ipAt d 11)
    (State.takeDescriptor { s with script := rest } d)
  have hstep : step s = .next t := by
    rw [step_issue hscript, State.issue_of_decode (decode_arpreq _ hop hlen), hexec]
  have hobuf : t.obuf = be16 s.config.arpHtype ++ be16 s.config.arpPtype ++ [0x06, 0x04, 0x00, 0x01] ++
      (macAt d 1).bytes ++ (ipAt d 7).bytes ++ zeros 6 ++ (ipAt d 11).bytes := congrArg State.obuf hregs
  have hlmac : (macAt d 1).bytes = memRead d 1 6 := bytes_macAt (by omega)
  have hlip : (ipAt d 7).bytes = memRead d 7 4 := bytes_ipAt (by omega)
  have htip : (ipAt d 11).bytes = memRead d 11 4 := bytes_ipAt (by omega)
  refine ⟨t, hstep, congrArg State.status hregs, congrArg State.result hregs, holen, ?_⟩
  rw [hobuf, ← hlmac, ← hlip, ← htip]
  exact ⟨memRead16_be16 _, memRead16_be16 _, rfl, rfl, rfl, rfl, rfl⟩

end Machine
end Sys2Proof
end

section
/-! PROOFS. The CODE of a command: the first test of the decoder that fails (spec/60_exceptions.md R141 to R149). -/
namespace Sys2Proof

/-! ### The decoder's tests (R67, R68, R69) -/

/-- A first byte selects no command exactly when its number is outside 1 to 4 (R68). -/
theorem Opcode.ofByte_eq_none_iff (b : Byte) : Opcode.ofByte b = none ↔ b.toNat < 1 ∨ 4 < b.toNat := by
  unfold Opcode.ofByte
  split_ifs with h1 h2 h3 h4
  case neg => simp only [true_iff]; bv_omega
  all_goals subst b; decide

/-- A selector is unrecognised exactly from 3 on (R63, R69). -/
theorem EtherName.ofSel_eq_none_iff (sel : Byte) : EtherName.ofSel sel = none ↔ 3 ≤ sel.toNat := by
  unfold EtherName.ofSel
  split_ifs with h0 h1 h2
  case neg => simp only [true_iff]; bv_omega
  all_goals subst sel; decide

/-- R67 from step 3 on, for a descriptor whose opcode is known: the tests in terms of the number of operand bytes. -/
theorem decode_byte_cons (cfg : Config) (op : Opcode) (operands : List Byte) :
    decode cfg (op.byte :: operands) =
      if operands.length < op.fixedBytes ∨ (op = .arpreq ∧ 14 < operands.length) then .error .errFormat
      else if op.bounded ∧ cfg.payloadMax < operands.length - op.fixedBytes then .error .errLength
      else decodeFields op (op.byte :: operands) := by
  have hpayload : (payloadOf op (op.byte :: operands)).length = operands.length - op.fixedBytes := by
    simp only [payloadOf, List.length_drop, List.length_cons]; omega
  simp only [decode, Opcode.ofByte_byte, hpayload, ite_or]

/-- Steps 5 and 6 of R67 keep the payload, so they make a well-formed command when step 4 let it pass. -/
theorem wellFormed_of_decodeFields {cfg : Config} {op : Opcode} {d : List Byte} {i : Instr}
    (hfits : op.bounded = true → (payloadOf op d).length ≤ cfg.payloadMax) (h : decodeFields op d = .ok i) :
    i.wellFormed cfg = true := by
  cases op with
  | csum => cases h; rfl
  | arpreq => cases h; rfl
  | icmpreq => cases h; simpa [Instr.wellFormed] using hfits rfl
  | eth =>
    simp only [decodeFields] at h
    split at h
    · simp at h
    · cases h; simpa [Instr.wellFormed] using hfits rfl

/-- A command the decoder accepts is well formed: its payload has passed step 4 of R67. -/
theorem wellFormed_of_decode {cfg : Config} {d : List Byte} {i : Instr} (h : decode cfg d = .ok i) :
    i.wellFormed cfg = true := by
  unfold decode at h
  split at h
  · simp at h
  split at h
  · simp at h
  split_ifs at h with hshort hlong hpayload
  exact wellFormed_of_decodeFields (fun hbounded => not_lt.mp fun hlt => hpayload ⟨hbounded, hlt⟩) h

namespace Machine

/-! ### The CODE of a descriptor -/

/-- The CODE of a decoder result (R27, R149). -/
def codeOfDecoded : Except ErrCode Instr → Code
  | .ok _ => .ok
  | .error e => codeOfErr e

@[simp] theorem codeOfDecoded_ok (i : Instr) : codeOfDecoded (.ok i) = .ok := rfl
@[simp] theorem codeOfDecoded_error (e : ErrCode) : codeOfDecoded (.error e) = codeOfErr e := rfl

/-- The tests of R148 in order, on the numbers of the opcode byte and the selector: the CODE of the first that fails.
`codeOfDecoded_decode` ties it to the decoder. -/
def firstFailingTest (cfg : Config) (d : List Byte) : Code :=
  let op := (byteAt d 0).toNat
  if d = [] then .errFormat
  else if op < 1 ∨ 4 < op then .errOpcode
  else if (op = 2 ∧ d.length < 14) ∨ (op = 3 ∧ d.length ≠ 15) ∨ (op = 4 ∧ d.length < 5) then .errFormat
  else if (op = 2 ∧ cfg.payloadMax < d.length - 14) ∨ (op = 4 ∧ cfg.payloadMax < d.length - 5) then .errLength
  else if op = 2 ∧ 3 ≤ (byteAt d 13).toNat then .errEtype
  else .ok

/-- Of steps 5 and 6 of R67, only the ETSEL of an ETH can fail. -/
theorem codeOfDecoded_decodeFields (op : Opcode) (d : List Byte) :
    codeOfDecoded (decodeFields op d) = if op = .eth ∧ 3 ≤ (byteAt d 13).toNat then .errEtype else .ok := by
  cases op with
  | csum => rfl
  | arpreq => rfl
  | icmpreq => rfl
  | eth =>
    simp only [decodeFields, ← EtherName.ofSel_eq_none_iff, true_and]
    cases EtherName.ofSel (byteAt d 13) <;> simp [codeOfErr]

/-- The decoder's tests, whose lengths R67 takes from the table of commands, are those of R148. -/
theorem codeOfDecoded_decode (cfg : Config) (d : List Byte) :
    codeOfDecoded (decode cfg d) = firstFailingTest cfg d := by
  cases d with
  | nil => rfl
  | cons first operands =>
    cases hop : Opcode.ofByte first with
    | none =>
      have hunknown := (Opcode.ofByte_eq_none_iff first).mp hop
      simp only [decode, hop, codeOfDecoded_error, codeOfErr, firstFailingTest, byteAt_cons_zero, reduceCtorEq,
        if_false]
      exact (if_pos hunknown).symm
    | some op =>
      obtain rfl := Opcode.byte_of_ofByte hop
      simp only [decode_byte_cons, apply_ite codeOfDecoded, codeOfDecoded_error, codeOfDecoded_decodeFields,
        codeOfErr, firstFailingTest, byteAt_cons_zero]
      cases op with
      | csum => simp [Opcode.byte, Opcode.fixedBytes, Opcode.bounded]
      | eth => simp +arith [Opcode.byte, Opcode.fixedBytes, Opcode.bounded]
      | arpreq => simp [Opcode.byte, Opcode.fixedBytes, Opcode.bounded, lt_or_lt_iff_ne]
      | icmpreq => simp +arith [Opcode.byte, Opcode.fixedBytes, Opcode.bounded]

/-- The chain of tests gives each error exactly under the condition of its own rule, R141 to R144. With the
empty descriptor apart, the tests of R148 are decided one by one, and what is left is arithmetic. -/
theorem firstFailingTest_eq_iff (cfg : Config) (d : List Byte) :
    let op := (byteAt d 0).toNat
    (firstFailingTest cfg d = .errEtype ↔
      op = 2 ∧ 14 ≤ d.length ∧ d.length - 14 ≤ cfg.payloadMax ∧ 3 ≤ (byteAt d 13).toNat) ∧
    (firstFailingTest cfg d = .errOpcode ↔ d ≠ [] ∧ (op = 0 ∨ 5 ≤ op)) ∧
    (firstFailingTest cfg d = .errFormat ↔
      d = [] ∨ (op = 2 ∧ d.length < 14) ∨ (op = 3 ∧ d.length ≠ 15) ∨ (op = 4 ∧ d.length < 5)) ∧
    (firstFailingTest cfg d = .errLength ↔
      (op = 2 ∧ cfg.payloadMax < d.length - 14) ∨ (op = 4 ∧ cfg.payloadMax < d.length - 5)) := by
  by_cases hempty : d = []
  · subst hempty
    simp [firstFailingTest, byteAt]
  · simp only [firstFailingTest, hempty, if_false, ne_eq, not_false_iff, true_and, false_or]
    refine ⟨?_, ?_, ?_, ?_⟩ <;> split_ifs <;> simp only [true_iff, false_iff] <;> omega

/-! ### The step -/

/-- STATUS.CODE reads back as the CODE that STATUS was put together from (R26). -/
theorem State.code_of_status {s : State} {done cv : Bool} {code : Code} (h : s.status = statusWord done cv code) :
    s.code = some code := by
  rw [State.code, State.codeField, h]
  cases done <;> cases cv <;> cases code <;> rfl

/-- A command that ends OK leaves STATUS 0x20, or 0x30 with a checksum (R27). -/
theorem State.code_ok_of_status {s : State} (h : s.status = 0x20 ∨ s.status = 0x30) : s.code = some .ok := by
  obtain hplain | hchecksum := h
  · exact State.code_of_status (done := true) (cv := false) hplain
  · exact State.code_of_status (done := true) (cv := true) hchecksum

@[simp] theorem State.fail_code (s : State) (e : ErrCode) : (s.fail e).code = some (codeOfErr e) :=
  State.code_of_status (s.fail_status e)

/-- A well-formed command ends OK, since the payload test that ETH and ICMPREQ repeat passes (R110, R130). -/
theorem exec_code_of_wellFormed {i : Instr} {s : State} (h : i.wellFormed s.config = true) :
    ∃ t : State, exec i s = .next t ∧ t.code = some .ok := by
  cases i with
  | csum data => exact ⟨_, exec_csum data s, State.code_ok_of_status (.inr rfl)⟩
  | eth dmac smac name payload =>
    have hfits : payload.length ≤ s.config.payloadMax := by simpa [Instr.wellFormed] using h
    exact ⟨_, exec_eth_of_fits hfits dmac smac name, State.code_ok_of_status (.inl rfl)⟩
  | arpreq lmac lip tip => exact ⟨_, exec_arpreq lmac lip tip s, State.code_ok_of_status (.inl rfl)⟩
  | icmpreq id seqno payload =>
    have hfits : payload.length ≤ s.config.payloadMax := by simpa [Instr.wellFormed] using h
    exact ⟨_, exec_icmpreq_of_fits hfits id seqno, State.code_ok_of_status (.inr rfl)⟩

/-- A descriptor the decoder turns away is answered by `fail` and nothing else (R149). -/
theorem step_issue_of_error {s : State} {d : List Byte} {rest : List HostAction} {e : ErrCode}
    (h : s.script = .issue d :: rest) (hdecode : decode s.config d = .error e) :
    step s = .next ((State.takeDescriptor { s with script := rest } d).fail e) := by
  rw [step_issue h, State.issue, hdecode]

/-- A descriptor the decoder accepts runs to a command that ends OK. -/
theorem step_issue_of_ok {s : State} {d : List Byte} {rest : List HostAction} {i : Instr}
    (h : s.script = .issue d :: rest) (hdecode : decode s.config d = .ok i) :
    ∃ t : State, step s = .next t ∧ t.code = some .ok := by
  rw [step_issue h, State.issue_of_decode (s := { s with script := rest }) hdecode]
  exact exec_code_of_wellFormed (wellFormed_of_decode hdecode)

/-- The step that issues a descriptor reports its first failing test, and leaves only the response when there is one. -/
theorem step_issue_reports {s : State} {d : List Byte} {rest : List HostAction} (h : s.script = .issue d :: rest) :
    ∃ t : State, step s = .next t ∧ t.code = some (firstFailingTest s.config d) ∧
      (t.code ≠ some .ok → t = { s with
        script := rest, status := t.status, result := 0x0000, obuf := [], seq := .idle, dbuf := t.dbuf }) := by
  rw [← codeOfDecoded_decode]
  cases hdecode : decode s.config d with
  | error e => exact ⟨_, step_issue_of_error h hdecode, State.fail_code _ e, fun _ => rfl⟩
  | ok i =>
    obtain ⟨t, hstep, hcode⟩ := step_issue_of_ok h hdecode
    exact ⟨t, hstep, hcode, fun hne => absurd hcode hne⟩

/-! ### The obligations -/

/-- Settles O9: the decoder's result is that of R148's tests (`codeOfDecoded_decode`), and an accepted command
ends OK. -/
theorem firstFailingTestGivesTheCode : Obligations.FirstFailingTestGivesTheCode := by
  intro s d rest h
  obtain ⟨t, hstep, hcode, -⟩ := step_issue_reports h
  exact ⟨t, hstep, hcode⟩

/-- Settles O10: the code is that of R148's chain of tests, which gives each error exactly under its own rule's
condition (`firstFailingTest_eq_iff`), and an error is answered by `fail` alone. -/
theorem eachErrorIsRaisedExactlyWhenItsRuleSays : Obligations.EachErrorIsRaisedExactlyWhenItsRuleSays := by
  intro s d rest h
  obtain ⟨t, hstep, hcode, hframe⟩ := step_issue_reports h
  obtain ⟨hetype, hopcode, hformat, hlength⟩ := firstFailingTest_eq_iff s.config d
  refine ⟨t, hstep, ?_, ?_, ?_, ?_, hframe⟩ <;> rw [hcode, Option.some.injEq]
  · exact hetype
  · exact hopcode
  · exact hformat
  · exact hlength

/-- Settles O11: the step of a descriptor that begins with 0x01 is known whole (`step_csum`), with STATUS 0x30. -/
theorem csumNeverFails : Obligations.CsumNeverFails :=
  fun _ _ _ h => ⟨_, step_csum h, State.code_ok_of_status (.inr rfl), rfl⟩

/-- Settles O25: the step is `fail` on the descriptor taken (`step_issue_of_error`), whose STATUS is 0x20 and the number
of the code. -/
theorem failingDescriptorLeavesOnlyTheErrorResponse : Obligations.FailingDescriptorLeavesOnlyTheErrorResponse := by
  intro s d rest e h hdecode
  refine ⟨_, step_issue_of_error h hdecode, ?_⟩
  cases e <;> rfl

end Machine
end Sys2Proof
end

section
/-! PROOFS. Byte order and the writing of OBUF: `be16` against `u16` (spec/20_memory.md R42 to R44), and `MemWrite`
(spec/00_scope.md R9). -/
namespace Sys2Proof

/-- The two bytes of a word put together are the word. -/
theorem u16_be16 (w : Word) : u16 (w.extractLsb' 8 8) (w.extractLsb' 0 8) = w := memRead16_be16 w

theorem be16_u16 (h l : Byte) : be16 (u16 h l) = [h, l] := by
  have := h.isLt; have := l.isLt
  rw [be16_eq, toNat_u16]
  congr 2 <;> apply BitVec.eq_of_toNat_eq <;> rw [BitVec.toNat_ofNat] <;> omega

/-- Settles O34: the pieces of a word are its `be16` bytes, whose `u16` is the word (`u16_be16`), and back
(`be16_u16`). -/
theorem bigEndianBytesAndWordsAgree : Obligations.BigEndianBytesAndWordsAgree := by
  refine ⟨fun w => ⟨w.extractLsb' 8 8, w.extractLsb' 0 8, rfl, u16_be16 w, ?_⟩, be16_u16⟩
  rw [← toNat_u16, u16_be16]

namespace Machine

/-- A byte above the overwritten range stays. -/
theorem overwrite_getElem?_above {buf : List Byte} {addr i : Nat} {v : List Byte} (h : addr + v.length ≤ i) :
    (overwrite buf addr v)[i]? = buf[i]? := by
  induction v generalizing buf addr with
  | nil => rfl
  | cons b v ih =>
    rw [List.length_cons] at h
    rw [overwrite_cons, ih (by omega), List.getElem?_set_ne (by omega)]

/-- A byte within the overwritten range is the one given for it. -/
theorem overwrite_getElem?_inside {buf : List Byte} {addr i : Nat} {v : List Byte}
    (hfits : addr + v.length ≤ buf.length) (hi : i < v.length) : (overwrite buf addr v)[addr + i]? = v[i]? := by
  induction v generalizing buf addr i with
  | nil => simp at hi
  | cons b v ih =>
    rw [List.length_cons] at hfits hi
    cases i with
    | zero =>
      rw [overwrite_cons, overwrite_getElem?_below _ _ _ _ (by omega), Nat.add_zero, List.getElem?_set_self (by omega)]
      rfl
    | succ i =>
      have hrest := ih (buf := buf.set addr b) (addr := addr + 1) (i := i) (by rw [List.length_set]; omega) (by omega)
      rw [overwrite_cons, List.getElem?_cons_succ, ← hrest, Nat.add_right_comm, Nat.add_assoc]

/-- Settles O20: what `overwrite` does inside, below and above the bytes it names. -/
theorem memWriteTouchesOnlyItsBytes : Obligations.MemWriteTouchesOnlyItsBytes := by
  intro s addr v hfits
  refine ⟨fun i hge hlt => ?_, fun i houtside => ?_, rfl⟩
  · obtain ⟨j, rfl⟩ := Nat.exists_eq_add_of_le hge
    rw [Nat.add_sub_cancel_left]
    exact overwrite_getElem?_inside hfits (by omega)
  · obtain hbelow | habove := houtside
    · exact overwrite_getElem?_below _ _ _ _ hbelow
    · exact overwrite_getElem?_above habove

end Machine
end Sys2Proof
end

section
/-! PROOFS. The decoder and the encoder are each other's inverse (spec/30_encoding.md R62 to R67), and how long an
accepted descriptor can be (spec/10_state.md R31). -/
namespace Sys2Proof

open Laws.EncodeShape (opcodeOf)

/-! ### A descriptor in pieces -/

/-- What is left of a descriptor from `addr` on is its next `n` bytes and the rest. -/
theorem memRead_append_drop (d : List Byte) (addr n : Nat) : memRead d addr n ++ d.drop (addr + n) = d.drop addr := by
  rw [memRead, ← List.drop_drop, List.take_append_drop]

theorem cons_drop_succ {d : List Byte} {addr : Nat} (h : addr < d.length) :
    byteAt d addr :: d.drop (addr + 1) = d.drop addr := by
  rw [byteAt_of_lt h, List.drop_eq_getElem_cons h]

/-- Within the descriptor, the bytes of the word read at `addr` are the bytes there. -/
theorem be16_memRead16 {d : List Byte} {addr : Nat} (h : addr + 2 ≤ d.length) :
    be16 (memRead16 d addr) = memRead d addr 2 := by
  rw [memRead16, be16_u16, memRead_succ (by omega), memRead_succ (by omega)]
  rfl

/-! ### The shape of an encoding (R60, R61) -/

theorem encodeShape (i : Instr) : Laws.EncodeShape.Statement i := by
  cases i with
  | csum data => exact Laws.EncodeShape.csum data
  | eth dmac smac name p => exact Laws.EncodeShape.eth dmac smac name p
  | arpreq lmac lip tip => exact Laws.EncodeShape.arpreq lmac lip tip
  | icmpreq id seqno p => exact Laws.EncodeShape.icmpreq id seqno p

theorem length_encode (i : Instr) :
    (encode i).length = 1 + (opcodeOf i).fixedBytes + (Laws.EncodeShape.payload i).length := by
  obtain ⟨-, hlength, -⟩ := encodeShape i
  exact hlength

/-- A descriptor is its command's opcode byte and the operand bytes. -/
theorem encode_eq_cons (i : Instr) : encode i = (opcodeOf i).byte :: (encode i).tail := by
  obtain ⟨hhead, -, -⟩ := encodeShape i
  exact (List.cons_head?_tail hhead).symm

theorem byteAt_encode_zero (i : Instr) : byteAt (encode i) 0 = (opcodeOf i).byte := by
  rw [encode_eq_cons, byteAt_cons_zero]

/-- A well-formed command's payload is within the bound of R67 step 4, where the opcode has one. -/
theorem payload_fits_of_wellFormed {cfg : Config} {i : Instr} (h : i.wellFormed cfg = true)
    (hbounded : (opcodeOf i).bounded = true) : (Laws.EncodeShape.payload i).length ≤ cfg.payloadMax := by
  cases i with
  | csum | arpreq => simp [opcodeOf, Opcode.bounded] at hbounded
  | eth | icmpreq => simpa [Instr.wellFormed, Laws.EncodeShape.payload] using h

/-! ### Decode after encode -/

/-- Steps 5 and 6 of R67 read each operand where R62 to R65 put it. -/
theorem decodeFields_encode (i : Instr) : decodeFields (opcodeOf i) (encode i) = .ok i := by
  cases i with
  | csum data => rfl
  | arpreq lmac lip tip => rfl
  | eth dmac smac name p =>
    have hsel : byteAt (encode (.eth dmac smac name p)) 13 = name.sel := rfl
    simp only [opcodeOf, decodeFields, hsel, EtherName.ofSel_sel]
    rfl
  | icmpreq id seqno p =>
    have hid : memRead16 (encode (.icmpreq id seqno p)) 1 = id := u16_be16 id
    have hseqno : memRead16 (encode (.icmpreq id seqno p)) 3 = seqno := u16_be16 seqno
    simp only [opcodeOf, decodeFields, hid, hseqno]
    rfl

theorem decode_encode {cfg : Config} {i : Instr} (h : i.wellFormed cfg = true) : decode cfg (encode i) = .ok i := by
  have hoperands : (encode i).tail.length = (opcodeOf i).fixedBytes + (Laws.EncodeShape.payload i).length := by
    rw [List.length_tail, length_encode]; omega
  have hlong : ¬ (opcodeOf i = .arpreq ∧ 14 < (encode i).tail.length) := by
    cases i <;> simp [opcodeOf, encode]
  rw [encode_eq_cons, decode_byte_cons, if_neg, if_neg, ← encode_eq_cons, decodeFields_encode]
  · rintro ⟨hbounded, hlt⟩
    have := payload_fits_of_wellFormed h hbounded
    omega
  · rw [not_or]
    exact ⟨by omega, hlong⟩

/-- Settles O6: the tests of R67 pass on an encoding, and every operand is read where it was written. -/
theorem decodeOfEncodeGivesTheCommandBack : Obligations.DecodeOfEncodeGivesTheCommandBack :=
  fun _ _ => decode_encode

/-! ### Encode after decode -/

/-- A descriptor of the right length is the encoding of the command that steps 5 and 6 of R67 read from it. -/
theorem encode_of_decodeFields {op : Opcode} {d : List Byte} {i : Instr} (hop : byteAt d 0 = op.byte)
    (hlong : op.fixedBytes < d.length) (harp : op = .arpreq → d.length = 15) (h : decodeFields op d = .ok i) :
    encode i = d := by
  have hwhole : op.byte :: d.drop 1 = d := by rw [← hop, cons_drop_succ (by omega), List.drop_zero]
  cases op with
  | csum => cases h; exact hwhole
  | eth =>
    have hlen : 13 < d.length := hlong
    simp only [decodeFields] at h
    split at h
    next => simp at h
    next name hsel =>
      cases h
      rw [encode, EtherName.sel_of_ofSel hsel, bytes_macAt (by omega), bytes_macAt (by omega)]
      simp only [List.append_assoc, List.singleton_append]
      rw [payloadOf, Opcode.fixedBytes, cons_drop_succ hlen, memRead_append_drop, memRead_append_drop]
      exact hwhole
  | arpreq =>
    have hlen : d.length = 15 := harp rfl
    cases h
    have hend : d.drop 15 = [] := List.drop_eq_nil_of_le hlen.le
    rw [encode, bytes_macAt (by omega), bytes_ipAt (by omega), bytes_ipAt (by omega), List.append_assoc,
      ← List.append_nil (memRead d 11 4), ← hend, memRead_append_drop, memRead_append_drop, memRead_append_drop]
    exact hwhole
  | icmpreq =>
    have hlen : 4 < d.length := hlong
    cases h
    rw [encode, be16_memRead16 (by omega), be16_memRead16 (by omega), List.append_assoc, payloadOf, Opcode.fixedBytes,
      memRead_append_drop, memRead_append_drop]
    exact hwhole

theorem encode_of_decode {cfg : Config} {d : List Byte} {i : Instr} (h : decode cfg d = .ok i) : encode i = d := by
  unfold decode at h
  split at h
  · simp at h
  rename_i first operands
  split at h
  · simp at h
  rename_i op hop
  split_ifs at h with hshort hlong hpayload
  refine encode_of_decodeFields (Opcode.byte_of_ofByte hop).symm ?_ ?_ h
  · rw [List.length_cons]; omega
  · rintro rfl
    simp only [true_and, Opcode.fixedBytes, List.length_cons] at hshort hlong ⊢
    omega

/-- Settles O7: the encoding puts the pieces that the decoder read back where they stood, and what the decoder accepts
has passed its payload test (`wellFormed_of_decode`). -/
theorem decodeAcceptsOnlyTheDescriptorOfTheCommand : Obligations.DecodeAcceptsOnlyTheDescriptorOfTheCommand :=
  fun _ _ _ h => ⟨encode_of_decode h, wellFormed_of_decode h⟩

/-! ### Written-out descriptors, and the capacity of DBUF -/

/-- Settles O8: each descriptor is the encoding of its command, whose payload has at most four bytes; the table words
are evaluated. -/
theorem writtenOutDescriptorsDecode : Obligations.WrittenOutDescriptorsDecode := by
  intro cfg hmax
  refine ⟨decode_csum cfg _, ?_, ?_, ?_, by decide, by decide⟩
  · exact decode_encode (i := .eth ⟨0xFF, 0xFF, 0xFF, 0xFF, 0xFF, 0xFF⟩ ⟨0xAA, 0xBB, 0xCC, 0xDD, 0xEE, 0xFF⟩ .arp [])
      (by simp [Instr.wellFormed])
  · exact decode_encode (i := .arpreq ⟨0xAA, 0xBB, 0xCC, 0xDD, 0xEE, 0xFF⟩ ⟨10, 0, 0, 1⟩ ⟨10, 0, 0, 2⟩) rfl
  · exact decode_encode (i := .icmpreq 1 1 [0x70, 0x69, 0x6E, 0x67]) (by simpa [Instr.wellFormed] using hmax)

/-- A descriptor that is accepted and is no CSUM fits DBUF. -/
theorem length_le_dbufCapacity {cfg : Config} {d : List Byte} {i : Instr} (h : decode cfg d = .ok i)
    (hop : byteAt d 0 ≠ 0x01) : d.length ≤ cfg.dbufCapacity := by
  have hfits := payload_fits_of_wellFormed (wellFormed_of_decode h)
  have hlen := length_encode i
  rw [encode_of_decode h] at hlen
  rw [← encode_of_decode h, byteAt_encode_zero] at hop
  rw [hlen, Config.dbufCapacity]
  cases i with
  | csum data => exact absurd rfl hop
  | eth dmac smac name p => have := hfits rfl; simp only [opcodeOf, Opcode.fixedBytes]; omega
  | arpreq lmac lip tip => simp [opcodeOf, Opcode.fixedBytes, Laws.EncodeShape.payload]
  | icmpreq id seqno p => have := hfits rfl; simp only [opcodeOf, Opcode.fixedBytes]; omega

/-- A command whose descriptor is as long as DBUF's capacity: an ETH with the largest payload, or, where that is the
empty one, an ARPREQ. -/
def longestCommand (cfg : Config) : Instr :=
  if cfg.payloadMax = 0 then .arpreq ⟨0, 0, 0, 0, 0, 0⟩ ⟨0, 0, 0, 0⟩ ⟨0, 0, 0, 0⟩
  else .eth ⟨0, 0, 0, 0, 0, 0⟩ ⟨0, 0, 0, 0, 0, 0⟩ .ipv4 (zeros cfg.payloadMax)

theorem longestCommand_spec (cfg : Config) :
    (longestCommand cfg).wellFormed cfg = true ∧ opcodeOf (longestCommand cfg) ≠ .csum ∧
      (encode (longestCommand cfg)).length = cfg.dbufCapacity := by
  unfold longestCommand Config.dbufCapacity
  split
  next hzero => exact ⟨rfl, by decide, by rw [hzero]; rfl⟩
  next hpos =>
    refine ⟨by simp [Instr.wellFormed], by simp [opcodeOf], ?_⟩
    rw [length_encode]
    simp only [opcodeOf, Opcode.fixedBytes, Laws.EncodeShape.payload, zeros_length]
    omega

/-- Settles O12: the bound is that of the payload test, and `longestCommand` reaches it. -/
theorem dbufCapacityIsEnoughAndNeeded : Obligations.DbufCapacityIsEnoughAndNeeded := by
  intro cfg
  obtain ⟨hwf, hcsum, hlength⟩ := longestCommand_spec cfg
  refine ⟨fun _ _ => length_le_dbufCapacity, encode (longestCommand cfg), longestCommand cfg,
    decode_encode hwf, ?_, hlength⟩
  rw [byteAt_encode_zero]
  cases hop : opcodeOf (longestCommand cfg) with
  | csum => exact absurd hop hcsum
  | eth | arpreq | icmpreq => decide

end Sys2Proof
end

section
/-! PROOFS. The laws of the checksum (spec/40_checksum.md R91, R96 to R99, R101, R103 to R105). The raw sum is additive
over word-aligned pieces, and folding keeps exactly two things of it: its residue modulo 65535, and whether it is zero
(`fold_residue`, `fold_eq_zero_iff`); every law below is arithmetic from these. -/
namespace Sys2Proof

/-! ### The raw sum (R91) -/

/-- What the byte at offset `j` adds to the raw sum: a high byte at an even offset, a low byte at an odd one (R91). -/
def offsetTerm (b : List Byte) (j : Nat) : Nat := if j % 2 = 0 then (byteAt b j).toNat * 256 else (byteAt b j).toNat

/-- Two bytes put in front shift every offset and keep its parity. -/
theorem offsetTerm_cons_cons (h l : Byte) (rest : List Byte) (j : Nat) :
    offsetTerm (h :: l :: rest) (j + 2) = offsetTerm rest j := by
  rw [offsetTerm, byteAt_cons_succ, byteAt_cons_succ, Nat.add_mod_right, offsetTerm]

theorem rawSum_eq_sum_offsetTerm (b : List Byte) : rawSum b = ((List.range b.length).map (offsetTerm b)).sum := by
  induction b using words.induct with
  | case1 => rfl
  | case2 h => simp [offsetTerm]
  | case3 h l rest ih =>
    have hshift : offsetTerm (h :: l :: rest) ∘ Nat.succ ∘ Nat.succ = offsetTerm rest :=
      funext (offsetTerm_cons_cons h l rest)
    have hfirst : offsetTerm (h :: l :: rest) 0 = h.toNat * 256 := rfl
    have hsecond : offsetTerm (h :: l :: rest) (Nat.succ 0) = l.toNat := rfl
    simp only [List.length_cons, List.range_succ_eq_map, List.map_cons, List.map_map, List.sum_cons, hshift, hfirst,
      hsecond, rawSum_cons_cons, ih]
    omega

/-- Settles O36: the sum of the words is the definition, and the words are taken apart into bytes in pairs. -/
theorem rawSumIsTheSumOverByteOffsets : Obligations.RawSumIsTheSumOverByteOffsets :=
  ⟨rfl, fun b => ⟨rfl, rawSum_eq_sum_offsetTerm b⟩⟩

theorem rawSum_eq_zero_iff (b : List Byte) : rawSum b = 0 ↔ ∀ x ∈ b, x = 0x00 := by
  have hbyte : ∀ x : Byte, x.toNat = 0 ↔ x = 0x00 := fun x => BitVec.toNat_inj (y := 0x00)
  induction b using words.induct with
  | case1 => simp
  | case2 h => simp [hbyte]
  | case3 h l rest ih => simp [ih, hbyte, and_assoc]

/-- Behind an even number of bytes, raw sums add (R104 b). -/
theorem rawSum_append_of_even {a : List Byte} (h : a.length % 2 = 0) (b : List Byte) :
    rawSum (a ++ b) = rawSum a + rawSum b := by
  induction a using words.induct with
  | case1 => simp
  | case2 => simp at h
  | case3 h l rest ih =>
    have hrest := ih (by rw [List.length_cons, List.length_cons] at h; omega)
    simp [hrest, Nat.add_assoc]

/-- Appended zero bytes add nothing, be it after an odd length (R104 a). -/
theorem rawSum_append_zeros (b : List Byte) (k : Nat) : rawSum (b ++ zeros k) = rawSum b := by
  induction b using words.induct with
  | case1 => exact rawSum_zeros k
  | case2 h =>
    cases k with
    | zero => rfl
    | succ k =>
      have hpair : [h] ++ zeros (k + 1) = h :: 0x00 :: zeros k := rfl
      simp [hpair]
  | case3 h l rest ih => simp [ih]

/-- The raw sum of whole words is the sum of their values, in whatever order (R99 f). -/
theorem rawSum_pairs_append (p : List (Byte × Byte)) (tail : List Byte) :
    rawSum (p.flatMap (fun w => [w.1, w.2]) ++ tail) =
      (p.map fun w => w.1.toNat * 256 + w.2.toNat).sum + rawSum tail := by
  induction p with
  | nil => simp
  | cons w p ih =>
    simp only [List.flatMap_cons, List.cons_append, List.nil_append, rawSum_cons_cons, ih, List.map_cons, List.sum_cons,
      Nat.add_assoc]

/-! ### One word replaced (R104 c) -/

namespace Machine

/-- Overwriting behind the first byte leaves that byte in front. -/
theorem overwrite_cons_succ (b : Byte) (buf : List Byte) (addr : Nat) (v : List Byte) :
    overwrite (b :: buf) (addr + 1) v = b :: overwrite buf addr v := by
  induction v generalizing buf addr with
  | nil => rfl
  | cons x v ih => rw [overwrite_cons, List.set_cons_succ, ih, overwrite_cons]

/-- Replacing the word at an even offset changes the raw sum by the difference of the words. -/
theorem rawSum_overwrite_be16 {m : List Byte} {k : Nat} (heven : k % 2 = 0) (hroom : k + 1 < m.length) (w : Word) :
    rawSum (overwrite m k (be16 w)) + (memRead16 m k).toNat = rawSum m + w.toNat := by
  induction m using words.induct generalizing k with
  | case1 => simp at hroom
  | case2 => simp at hroom
  | case3 h l rest ih =>
    obtain _ | _ | j := k
    · have hword : overwrite (h :: l :: rest) 0 (be16 w) = w.extractLsb' 8 8 :: w.extractLsb' 0 8 :: rest := rfl
      have hold : memRead16 (h :: l :: rest) 0 = u16 h l := rfl
      rw [hword, hold, rawSum_cons_cons, rawSum_cons_cons, ← toNat_u16, u16_be16, toNat_u16]
      omega
    · simp at heven
    · have hrest := ih (k := j) (by omega) (by rw [List.length_cons, List.length_cons] at hroom; omega)
      have hold : memRead16 (h :: l :: rest) (j + 2) = memRead16 rest j := rfl
      rw [overwrite_cons_succ, overwrite_cons_succ, rawSum_cons_cons, rawSum_cons_cons, hold]
      omega

/-- The same between two contents of the field: `v` and `w` each written over the same bytes. -/
theorem rawSum_overwrite_be16_pair {m : List Byte} {k : Nat} (heven : k % 2 = 0) (hroom : k + 1 < m.length)
    (v w : Word) :
    rawSum (overwrite m k (be16 v)) + w.toNat = rawSum (overwrite m k (be16 w)) + v.toNat := by
  have hv := rawSum_overwrite_be16 heven hroom v
  have hw := rawSum_overwrite_be16 heven hroom w
  omega

end Machine

/-! ### Folding (R98) -/

/-- Settles O38: a fold has the residue of its sum and is zero only for zero, and the closed form is the one number of
1 to 0xFFFF with that residue. -/
theorem foldHasItsClosedForm : Obligations.FoldHasItsClosedForm := by
  refine ⟨rfl, fun n hpos => ?_⟩
  have hle := fold_le n
  have hresidue := fold_residue n
  have hzero := fold_eq_zero_iff n
  refine ⟨?_, ?_, hle, hresidue, ?_⟩ <;> omega

/-- Folding a part of a sum beforehand changes nothing. -/
theorem fold_add_fold (n k : Nat) : fold (n + fold k) = fold (n + k) := by
  have hresidue := fold_residue k
  have hzero := fold_eq_zero_iff k
  apply eq_of_residue (fold_le _) (fold_le _)
  · rw [fold_residue, fold_residue]; omega
  · rw [fold_eq_zero_iff, fold_eq_zero_iff]; omega

/-! ### The checksum as a number (R97, R99) -/

theorem checksum_eq_of_rawSum_eq {b c : List Byte} (h : rawSum b = rawSum c) : checksum b = checksum c := by
  rw [checksum, checksum, h]

theorem checksum_eq_allOnes_iff (b : List Byte) : checksum b = 0xFFFF ↔ rawSum b = 0 := by
  have hle := fold_le (rawSum b)
  rw [← BitVec.toNat_inj, toNat_checksum, ← fold_eq_zero_iff]
  bv_omega

/-- A byte sequence verifies when its raw sum is a positive multiple of 65535 (R99 c). -/
theorem checksum_eq_zero_iff (b : List Byte) : checksum b = 0x0000 ↔ 1 ≤ rawSum b ∧ 65535 ∣ rawSum b := by
  have hle := fold_le (rawSum b)
  have hresidue := fold_residue (rawSum b)
  have hzero := fold_eq_zero_iff (rawSum b)
  rw [← BitVec.toNat_inj, toNat_checksum]
  bv_omega

/-- Settles O42: `State.clear_absorbAll` says what the engine ends with, and the complement of the checksum is the
folded sum. -/
theorem engineComputesTheChecksum : Obligations.EngineComputesTheChecksum := by
  intro s b
  rw [Machine.State.clear_absorbAll]
  exact ⟨BitVec.not_not, by rw [not_checksum]⟩

/-- Settles O43: the two extreme values by their raw sums; that of one byte is within 16 bits and needs no fold. -/
theorem checksumValuesAndTheirCauses : Obligations.ChecksumValuesAndTheirCauses := by
  intro b
  refine ⟨(checksum_eq_allOnes_iff b).trans (rawSum_eq_zero_iff b), checksum_eq_zero_iff b, fun x => ?_⟩
  have := x.isLt
  rw [checksum, rawSum_singleton, fold_of_le (by omega)]

/-- Settles O44: the raw sum is the sum of the words' values, which a permutation keeps. -/
theorem wordOrderDoesNotMatter : Obligations.WordOrderDoesNotMatter := by
  intro p q tail hperm
  apply checksum_eq_of_rawSum_eq
  rw [rawSum_pairs_append, rawSum_pairs_append, (hperm.map _).sum_eq]

namespace Machine

/-- Settles O45: each law is one of the raw sum; behind an even number of bytes the folded sums add by
`eacAdd_ofNat_fold`. -/
theorem checksumLawsOfConcatenation : Obligations.ChecksumLawsOfConcatenation := by
  refine ⟨fun b k => checksum_eq_of_rawSum_eq (rawSum_append_zeros b k), fun a b heven => ?_,
    fun m k w heven hroom => rawSum_overwrite_be16 heven hroom w⟩
  have hsum := rawSum_append_of_even heven b
  refine ⟨hsum, ?_⟩
  rw [eacAdd_ofNat_fold, toNat_ofNat_fold, fold_add_fold, hsum]

/-! ### A checksum in a field (R101, R103, R105) -/

/-- What verifying gives is, modulo 65535, the content the field had while the checksum was computed (R103). -/
theorem checksum_overwrite_checksum_residue {m : List Byte} {k : Nat} (heven : k % 2 = 0) (hroom : k + 1 < m.length)
    (x : Word) :
    (checksum (overwrite m k (be16 (checksum (overwrite m k (be16 x)))))).toNat % 65535 = x.toNat % 65535 := by
  set summed := overwrite m k (be16 x)
  set sent := overwrite m k (be16 (checksum summed))
  have hpair : rawSum sent + x.toNat = rawSum summed + (checksum summed).toNat :=
    rawSum_overwrite_be16_pair heven hroom (checksum summed) x
  have hle := fold_le (rawSum summed)
  have hresidue := fold_residue (rawSum summed)
  have hle' := fold_le (rawSum sent)
  have hresidue' := fold_residue (rawSum sent)
  rw [toNat_checksum] at hpair ⊢
  omega

/-- A field that was zero while the checksum was computed, filled in at an even offset, verifies (R101). -/
theorem checksum_fill_eq_zero {m : List Byte} {k : Nat} (heven : k % 2 = 0) (hroom : k + 1 < m.length)
    (hfield : memRead16 m k = 0x0000) : checksum (overwrite m k (be16 (checksum m))) = 0x0000 := by
  have hsum := rawSum_overwrite_be16 heven hroom (checksum m)
  have hle := fold_le (rawSum m)
  have hresidue := fold_residue (rawSum m)
  have hzero := fold_eq_zero_iff (rawSum m)
  rw [hfield, toNat_checksum] at hsum
  rw [checksum_eq_zero_iff]
  bv_omega

/-- A word written into a sequence is read back from there. -/
theorem memRead16_overwrite_be16 {m : List Byte} {k : Nat} (hroom : k + 1 < m.length) (w : Word) :
    memRead16 (overwrite m k (be16 w)) k = w := by
  induction k generalizing m with
  | zero =>
    obtain _ | ⟨h, _ | ⟨l, rest⟩⟩ := m
    · simp at hroom
    · simp at hroom
    · exact u16_be16 w
  | succ k ih =>
    obtain _ | ⟨b, m⟩ := m
    · simp at hroom
    · rw [overwrite_cons_succ]
      exact ih (by simpa using hroom)

/-- Settles O46: the zeroed field reads as zero, so `checksum_fill_eq_zero` applies. -/
theorem filledInChecksumVerifies : Obligations.FilledInChecksumVerifies := by
  intro m k heven hroom zeroed
  exact checksum_fill_eq_zero heven (by rwa [overwrite_length]) (memRead16_overwrite_be16 hroom 0x0000)

/-- Settles O47: the two sequences of the counter-example are evaluated. -/
theorem oddOffsetDoesNotVerify : Obligations.OddOffsetDoesNotVerify := by
  unfold Obligations.OddOffsetDoesNotVerify
  decide

/-- Settles O48: the residue of the result is that of the stale content, and a word is known by its residue unless
that is zero. -/
theorem staleFieldShowsInTheVerification : Obligations.StaleFieldShowsInTheVerification := by
  intro m k x heven hroom sent
  have hresidue : (checksum sent).toNat % 65535 = x.toNat % 65535 :=
    checksum_overwrite_checksum_residue heven hroom x
  refine ⟨hresidue, ?_, ?_⟩ <;> bv_omega

/-- Settles O49: with field f the raw sum is that with a zero field plus f (`rawSum_overwrite_be16_pair`), and it
verifies when that is a positive multiple of 65535. -/
theorem fieldValuesThatVerify : Obligations.FieldValuesThatVerify := by
  intro m k f heven hroom s verifies
  have hsum : rawSum (overwrite m k (be16 f)) = rawSum (overwrite m k [0x00, 0x00]) + f.toNat :=
    rawSum_overwrite_be16_pair heven hroom f 0x0000
  have hverifies : verifies ↔ 1 ≤ rawSum (overwrite m k [0x00, 0x00]) + f.toNat ∧
      65535 ∣ rawSum (overwrite m k [0x00, 0x00]) + f.toNat := hsum ▸ checksum_eq_zero_iff _
  have hresidue : s % 65535 = rawSum (overwrite m k [0x00, 0x00]) % 65535 := fold_residue _
  have hzero : s = 0 ↔ rawSum (overwrite m k [0x00, 0x00]) = 0 := fold_eq_zero_iff _
  rw [hverifies]
  refine ⟨?_, ?_, ?_⟩ <;> bv_omega

end Machine
end Sys2Proof
end

section
/-! PROOFS. What a command answers, said once for every descriptor and every state: an error, an output without a
checksum, or a checksum with or without an output (spec/10_state.md R25 to R29, spec/00_scope.md R7). -/
namespace Sys2Proof.Machine

open Laws.EncodeShape (opcodeOf)

/-! ### Answers -/

/-- The answer of a command, a value of the configuration and the descriptor alone. `issue_eq_answer` ties it to the
model. -/
inductive Answer where
  /-- It ends with an error (R149). -/
  | fail (e : ErrCode)
  /-- It leaves `out` in OBUF and no checksum (R110, R120). -/
  | plain (out : List Byte)
  /-- It leaves the checksum `c`, `out` in OBUF, and `odd` in ODD (R100, R130). -/
  | withChecksum (out : List Byte) (c : Word) (odd : Bool)

/-- The state an answer leads to. -/
def State.answer (s : State) : Answer → State
  | .fail e => s.fail e
  | .plain out => { s with obuf := out }.respondPlain
  | .withChecksum out c odd => { s with obuf := out, acc := ~~~ c, odd := odd }.respondChecksum c

/-- STATUS.CV of an answer. -/
def Answer.cv : Answer → Bool
  | .fail _ => false
  | .plain _ => false
  | .withChecksum _ _ _ => true

/-- STATUS.CODE of an answer. -/
def Answer.code : Answer → Code
  | .fail e => codeOfErr e
  | .plain _ => .ok
  | .withChecksum _ _ _ => .ok

/-- M0 of R130: the echo request with a zero checksum field. -/
def echoMessage (id seqno : Word) (payload : List Byte) : List Byte :=
  [0x08, 0x00, 0x00, 0x00] ++ be16 id ++ be16 seqno ++ payload

/-- The answer of a command whose payload fits (R71 to R73, R100). -/
def answerOf (cfg : Config) : Instr → Answer
  | .csum data => .withChecksum [] (checksum data) (decide (data.length % 2 = 1))
  | .eth dmac smac name payload =>
    .plain (cfg.preamble ++ dmac.bytes ++ smac.bytes ++ be16 (cfg.etypeCode name) ++ payload)
  | .arpreq lmac lip tip =>
    .plain (be16 cfg.arpHtype ++ be16 cfg.arpPtype ++ [0x06, 0x04, 0x00, 0x01] ++ lmac.bytes ++ lip.bytes ++ zeros 6 ++
      tip.bytes)
  | .icmpreq id seqno payload =>
    let m := echoMessage id seqno payload
    .withChecksum (overwrite m 2 (be16 (checksum m))) (checksum m) (decide (m.length % 2 = 1))

/-- The answer to a descriptor. -/
def answerTo (cfg : Config) (d : List Byte) : Answer :=
  match decode cfg d with
  | .ok i => answerOf cfg i
  | .error e => .fail e

theorem answerTo_of_decode {cfg : Config} {d : List Byte} {i : Instr} (h : decode cfg d = .ok i) :
    answerTo cfg d = answerOf cfg i := by
  rw [answerTo, h]

theorem answerTo_of_error {cfg : Config} {d : List Byte} {e : ErrCode} (h : decode cfg d = .error e) :
    answerTo cfg d = .fail e := by
  rw [answerTo, h]

/-! ### Every command answers -/

theorem exec_of_wellFormed {i : Instr} {s : State} (h : i.wellFormed s.config = true) :
    exec i s = .next (s.answer (answerOf s.config i)) := by
  cases i with
  | csum data => rw [exec_csum]; rfl
  | eth dmac smac name payload =>
    rw [exec_eth_of_fits (by simpa [Instr.wellFormed] using h), State.emitFrame_eq]; rfl
  | arpreq lmac lip tip => rw [exec_arpreq, State.emitArpRequest_eq]; rfl
  | icmpreq id seqno payload =>
    rw [exec_icmpreq_of_fits (by simpa [Instr.wellFormed] using h), State.fillChecksum_eq, State.emitEchoRequest_eq]; rfl

/-- Only ETH and ICMPREQ can be ill formed, and both then test their payload to the same end (R144; log 10). -/
theorem exec_of_not_wellFormed {i : Instr} {s : State} (h : i.wellFormed s.config = false) :
    exec i s = .next (s.answer (.fail .errLength)) := by
  cases i with
  | csum | arpreq => cases h
  | eth | icmpreq => exact if_pos (by simpa [Instr.wellFormed] using h)

/-- Taking the descriptor touches DBUF and SEQ only, which every answer sets (R22, R31). -/
@[simp] theorem State.answer_takeDescriptor (s : State) (d : List Byte) (a : Answer) :
    (s.takeDescriptor d).answer a = s.answer a := by
  cases a <;> rfl

theorem issue_eq_answer (s : State) (d : List Byte) : s.issue d = .next (s.answer (answerTo s.config d)) := by
  cases h : decode s.config d with
  | ok i =>
    have hwf : i.wellFormed (s.takeDescriptor d).config = true := wellFormed_of_decode h
    rw [State.issue_of_decode h, answerTo_of_decode h, exec_of_wellFormed hwf, State.answer_takeDescriptor]
    rfl
  | error e => rw [State.issue, h, answerTo_of_error h]; rfl

theorem step_issue_eq_answer {s : State} {d : List Byte} {rest : List HostAction} (h : s.script = .issue d :: rest) :
    step s = .next (State.answer { s with script := rest } (answerTo s.config d)) := by
  rw [step_issue h, issue_eq_answer]

/-! ### What an answer changes and what it leaves -/

section
variable (s : State) (a : Answer)

@[simp] theorem State.answer_status : (s.answer a).status = statusWord true a.cv a.code := by cases a <;> rfl
@[simp] theorem State.answer_seq : (s.answer a).seq = .idle := by cases a <;> rfl
@[simp] theorem State.answer_dbuf : (s.answer a).dbuf = [] := by cases a <;> rfl
@[simp] theorem State.answer_config : (s.answer a).config = s.config := by cases a <;> rfl
@[simp] theorem State.answer_script : (s.answer a).script = s.script := by cases a <;> rfl
@[simp] theorem State.answer_hostSaw : (s.answer a).hostSaw = s.hostSaw := by cases a <;> rfl

end

/-- The response is the answer's own, whatever state it came from (R7, R162). -/
theorem State.answer_response (s s' : State) (a : Answer) : (s.answer a).response = (s'.answer a).response := by
  cases a <;> rfl

/-- Without a checksum the engine is left alone (R25). -/
theorem State.answer_engine {s : State} {a : Answer} (h : a.cv = false) :
    (s.answer a).acc = s.acc ∧ (s.answer a).odd = s.odd := by
  cases a with
  | fail e => exact ⟨rfl, rfl⟩
  | plain out => exact ⟨rfl, rfl⟩
  | withChecksum out c odd => simp [Answer.cv] at h

/-! ### The fields of STATUS (R26, R27) -/

/-- Each field of STATUS, CODE apart (`State.code_of_status`), reads back as STATUS was put together from it. -/
theorem State.fields_of_status {s : State} {done cv : Bool} {code : Code} (h : s.status = statusWord done cv code) :
    s.done = done ∧ s.cv = cv ∧ s.reservedField = 0 := by
  rw [State.done, State.cv, State.reservedField, h]
  cases done <;> cases cv <;> cases code <;> exact ⟨rfl, rfl, rfl⟩

theorem toNat_statusWord (done cv : Bool) (code : Code) :
    (statusWord done cv code).toNat = (if done then 32 else 0) + (if cv then 16 else 0) + code.bits.toNat := by
  cases done <;> cases cv <;> cases code <;> rfl

/-- Settles O33: each field reads back, and the number of STATUS is that of its pieces (`toNat_statusWord`). -/
theorem statusFieldsReadBack : Obligations.StatusFieldsReadBack := by
  intro s done cv code h
  obtain ⟨hdone, hcv, hreserved⟩ := State.fields_of_status h
  exact ⟨hdone, hcv, State.code_of_status h, hreserved, h ▸ toNat_statusWord done cv code⟩

theorem State.answer_fields (s : State) (a : Answer) :
    (s.answer a).done = true ∧ (s.answer a).cv = a.cv ∧ (s.answer a).reservedField = 0 :=
  State.fields_of_status (s.answer_status a)

@[simp] theorem State.answer_done (s : State) (a : Answer) : (s.answer a).done = true := (s.answer_fields a).1

@[simp] theorem State.answer_cv (s : State) (a : Answer) : (s.answer a).cv = a.cv := by
  obtain ⟨-, hcv, -⟩ := s.answer_fields a
  exact hcv

@[simp] theorem State.answer_code (s : State) (a : Answer) : (s.answer a).code = some a.code :=
  State.code_of_status (s.answer_status a)

/-- The six values of STATUS that a command can leave (R27). -/
theorem Answer.status_mem (a : Answer) :
    statusWord true a.cv a.code ∈ ([0x20, 0x30, 0x21, 0x22, 0x23, 0x24] : List (BitVec 8)) := by
  cases a with
  | fail e => cases e <;> decide
  | plain out => change statusWord true false .ok ∈ _; decide
  | withChecksum out c odd => change statusWord true true .ok ∈ _; decide

/-- Of the commands only CSUM and ICMPREQ give a checksum, and an error gives none (R26). -/
theorem answerTo_cv_iff (cfg : Config) (d : List Byte) :
    (answerTo cfg d).cv = true ↔ (answerTo cfg d).code = .ok ∧ (byteAt d 0 = 0x01 ∨ byteAt d 0 = 0x04) := by
  cases h : decode cfg d with
  | error e => rw [answerTo_of_error h]; cases e <;> simp [Answer.cv, Answer.code, codeOfErr]
  | ok i =>
    rw [answerTo_of_decode h, ← encode_of_decode h, byteAt_encode_zero]
    cases i <;> simp [answerOf, Answer.cv, Answer.code, opcodeOf, Opcode.byte]

/-! ### The obligations -/

/-- Settles O17: the two commands are ill formed under the hypothesis, and such a command fails. -/
theorem oversizePayloadIsErrLength : Obligations.OversizePayloadIsErrLength := by
  intro dmac smac name id seqno payload s i hover hi
  have hbad : i.wellFormed s.config = false := by
    obtain rfl | rfl := hi <;> simpa [Instr.wellFormed] using hover
  exact ⟨_, exec_of_not_wellFormed hbad, rfl⟩

/-- Settles O18: well formed or not, a command answers, and no answer touches these fields. -/
theorem commandsLeaveConfigurationAndHostAlone : Obligations.CommandsLeaveConfigurationAndHostAlone := by
  intro i s
  have hanswers : ∃ a, exec i s = .next (s.answer a) := by
    cases h : i.wellFormed s.config with
    | true => exact ⟨_, exec_of_wellFormed h⟩
    | false => exact ⟨_, exec_of_not_wellFormed h⟩
  obtain ⟨a, ha⟩ := hanswers
  exact ⟨_, ha, s.answer_config a, s.answer_script a, s.answer_hostSaw a, s.answer_seq a⟩

/-- Settles O24: an issue takes the descriptor and runs what it decodes to. -/
theorem stepRunsTheDecodedCommand : Obligations.StepRunsTheDecodedCommand := by
  intro s d rest i h hdecode
  rw [step_issue h, State.issue_of_decode (s := { s with script := rest }) hdecode]
  rfl

/-- Settles O19: CV = 0 says that the answer has no checksum, and only one that has changes the engine. -/
theorem onlyChecksumCommandsTouchTheEngine : Obligations.OnlyChecksumCommandsTouchTheEngine := by
  intro s d rest h
  refine ⟨_, step_issue_eq_answer h, fun hcv => ?_⟩
  rw [State.answer_cv] at hcv
  exact State.answer_engine hcv

/-- Settles O26: STATUS is that of the answer, whose fields read back. -/
theorem statusFieldsAfterACommand : Obligations.StatusFieldsAfterACommand := by
  intro s d rest h
  obtain ⟨hdone, -, hreserved⟩ := State.answer_fields { s with script := rest } (answerTo s.config d)
  refine ⟨_, step_issue_eq_answer h, hdone, hreserved, ?_, ?_⟩
  · rw [State.answer_cv, State.answer_code, Option.some.injEq]
    exact answerTo_cv_iff s.config d
  · rw [State.answer_status]
    exact Answer.status_mem _

/-- Settles O29: both states give the same answer, and an answer has its own response. -/
theorem responseDependsOnConfigurationAndDescriptorOnly :
    Obligations.ResponseDependsOnConfigurationAndDescriptorOnly := by
  intro s s' d rest rest' hconfig h h'
  refine ⟨_, _, step_issue_eq_answer h, step_issue_eq_answer h', ?_⟩
  rw [hconfig]
  exact State.answer_response _ _ _

end Sys2Proof.Machine
end

section
/-! PROOFS. What an ETH and an ICMPREQ descriptor become (spec/95_test_vectors.md Part D 6 and 8). -/
namespace Sys2Proof

/-- A stretch of the descriptor in two parts. -/
theorem memRead_add (d : List Byte) (addr n k : Nat) :
    memRead d addr (n + k) = memRead d addr n ++ memRead d (addr + n) k := by
  rw [memRead, List.take_add, List.drop_drop, memRead, memRead]

/-- A descriptor of the right length decodes to the command that steps 5 and 6 of R67 read, when that is well formed. -/
theorem decode_of_decodeFields {cfg : Config} {op : Opcode} {d : List Byte} {i : Instr} (hop : byteAt d 0 = op.byte)
    (hlong : op.fixedBytes < d.length) (harp : op = .arpreq → d.length = 15) (h : decodeFields op d = .ok i)
    (hwf : i.wellFormed cfg = true) : decode cfg d = .ok i := by
  rw [← encode_of_decodeFields hop hlong harp h]
  exact decode_encode hwf

theorem decode_eth {cfg : Config} {d : List Byte} {name : EtherName} (hop : byteAt d 0 = 0x02) (hlen : 14 ≤ d.length)
    (hfits : d.length - 14 ≤ cfg.payloadMax) (hsel : byteAt d 13 = name.sel) :
    decode cfg d = .ok (.eth (macAt d 1) (macAt d 7) name (d.drop 14)) := by
  refine decode_of_decodeFields (op := .eth) hop hlen (by simp) ?_ (by simpa [Instr.wellFormed] using hfits)
  rw [decodeFields, hsel, EtherName.ofSel_sel]
  rfl

theorem decode_icmpreq {cfg : Config} {d : List Byte} (hop : byteAt d 0 = 0x04) (hlen : 5 ≤ d.length)
    (hfits : d.length - 5 ≤ cfg.payloadMax) :
    decode cfg d = .ok (.icmpreq (memRead16 d 1) (memRead16 d 3) (d.drop 5)) :=
  decode_of_decodeFields (op := .icmpreq) hop hlen (by simp) rfl (by simpa [Instr.wellFormed] using hfits)

namespace Machine

/-- Settles O21: the descriptor decodes to the ETH of its own bytes, whose frame holds them in their order. -/
theorem ethDescriptorBecomesTheFrame : Obligations.EthDescriptorBecomesTheFrame := by
  intro s d name rest h hop hlen hfits hsel
  have hmacs : (macAt d 1).bytes ++ (macAt d 7).bytes = memRead d 1 12 := by
    rw [bytes_macAt (by omega), bytes_macAt (by omega), ← memRead_add]
  have hanswer : answerTo s.config d =
      .plain (s.config.preamble ++ memRead d 1 12 ++ be16 (s.config.etypeCode name) ++ d.drop 14) := by
    rw [answerTo_of_decode (decode_eth hop hlen hfits hsel), answerOf, ← hmacs, ← List.append_assoc]
  rw [step_issue_eq_answer h, hanswer]
  refine ⟨_, rfl, rfl, rfl, rfl, ?_⟩
  simp only [State.answer, State.olen_eq, State.respondPlain_obuf, ← hmacs, List.length_append, Mac.bytes_length,
    be16_length, List.length_drop, Config.preLen]
  omega

/-! ### The echo request (R73, R130 to R133) -/

theorem echoMessage_length (id seqno : Word) (payload : List Byte) :
    (echoMessage id seqno payload).length = 8 + payload.length := by
  simp only [echoMessage, List.length_append, List.length_cons, List.length_nil, be16_length]

/-- The checksum of an echo request is never 0xFFFF, since its first byte is not zero. -/
theorem checksum_echoMessage_ne (id seqno : Word) (payload : List Byte) :
    checksum (echoMessage id seqno payload) ≠ 0xFFFF := by
  rw [ne_eq, checksum_eq_allOnes_iff, rawSum_eq_zero_iff]
  intro hzero
  have hfirst : (0x08 : Byte) = 0x00 := hzero 0x08 (List.mem_cons_self ..)
  simp at hfirst

/-- The echo request with its checksum filled in verifies (R133). -/
theorem checksum_filled_echoMessage (id seqno : Word) (payload : List Byte) :
    checksum (overwrite (echoMessage id seqno payload) 2 (be16 (checksum (echoMessage id seqno payload)))) = 0x0000 := by
  have hfield : memRead16 (echoMessage id seqno payload) 2 = u16 0x00 0x00 := rfl
  exact checksum_fill_eq_zero (by decide) (by rw [echoMessage_length]; omega) hfield

/-- Settles O23: the descriptor decodes to the ICMPREQ of its own bytes; of its message, the fields are where they were
written, and the checksum is that of an echo request with a zero field. -/
theorem icmpreqDescriptorBecomesAMessageThatVerifies : Obligations.IcmpreqDescriptorBecomesAMessageThatVerifies := by
  intro s d rest h hop hlen hfits
  have hwords : be16 (memRead16 d 1) ++ be16 (memRead16 d 3) = memRead d 1 4 := by
    rw [be16_memRead16 (by omega), be16_memRead16 (by omega), ← memRead_add]
  rw [step_issue_eq_answer h, answerTo_of_decode (decode_icmpreq hop hlen hfits)]
  refine ⟨_, rfl, rfl, ?_, rfl, hwords, rfl, ?_, ?_, rfl, ?_⟩
  · simp only [answerOf, State.answer, State.olen_eq, State.respondChecksum_obuf, overwrite_length,
      echoMessage_length, List.length_drop]
    omega
  · exact checksum_filled_echoMessage _ _ _
  · exact (u16_be16 _).symm
  · exact checksum_echoMessage_ne _ _ _

end Machine
end Sys2Proof
end

section
/-! PROOFS. The host's actions other than `issue`, and what a step can do (spec/10_state.md R35, R53,
spec/70_reset_and_hazards.md R161, R171). -/
namespace Sys2Proof.Machine

/-! ### One rule per action -/

theorem step_of_empty {s : State} (h : s.script = []) : step s = .next s := by
  simp [step, h]

theorem step_read {s : State} {rest : List HostAction} (h : s.script = .read :: rest) :
    step s = .next (State.observe { s with script := rest } (.response s.response)) := by
  rw [step_eq_act h]
  rfl

theorem step_readObuf_of_lt {s : State} {i : Nat} {rest : List HostAction} (h : s.script = .readObuf i :: rest)
    (hi : i < s.obuf.length) : step s = .next (State.observe { s with script := rest } (.obufByte i s.obuf[i])) := by
  have hbyte : State.obufByte { s with script := rest } i = some s.obuf[i] := List.getElem?_eq_getElem hi
  rw [step_eq_act h, State.act, State.readObuf, hbyte]

theorem step_readObuf_of_ge {s : State} {i : Nat} {rest : List HostAction} (h : s.script = .readObuf i :: rest)
    (hi : s.olen ≤ i) : step s = .refused (.obufBeyondOlen i s.olen) := by
  have hbyte : State.obufByte { s with script := rest } i = none := List.getElem?_eq_none hi
  rw [step_eq_act h, State.act, State.readObuf, hbyte]
  rfl

/-- The bytes taken before a reset in mid-command leave no trace (R161). -/
theorem step_resetMidCommand {s : State} {taken : List Byte} {rest : List HostAction}
    (h : s.script = .resetMidCommand taken :: rest) : step s = .next (State.resetAction { s with script := rest }) := by
  rw [step_eq_act h]
  rfl

/-! ### What a step can do -/

/-- A step either takes its action off the script, or is refused at a read of OBUF at or beyond OLEN. -/
theorem step_of_cons {s : State} {a : HostAction} {rest : List HostAction} (h : s.script = a :: rest) :
    (∃ t : State, step s = .next t ∧ t.script = rest) ∨
      ∃ i, a = .readObuf i ∧ s.olen ≤ i ∧ step s = .refused (.obufBeyondOlen i s.olen) := by
  cases a with
  | issue d => exact .inl ⟨_, step_issue_eq_answer h, State.answer_script _ _⟩
  | read => exact .inl ⟨_, step_read h, rfl⟩
  | readObuf i =>
    obtain hlt | hge := Nat.lt_or_ge i s.olen
    · exact .inl ⟨_, step_readObuf_of_lt h hlt, rfl⟩
    · exact .inr ⟨i, rfl, hge, step_readObuf_of_ge h hge⟩
  | reset => exact .inl ⟨_, step_reset h, rfl⟩
  | resetMidCommand taken => exact .inl ⟨_, step_resetMidCommand h, rfl⟩

/-- A step that goes on waits, answers a descriptor, lets the host note what it read, or resets. -/
theorem step_next_answer_cases {s t : State} (h : step s = .next t) :
    t = s ∨ ∃ rest : List HostAction,
      (∃ d, t = State.answer { s with script := rest } (answerTo s.config d)) ∨
      (∃ o, t = State.observe { s with script := rest } o) ∨
      t = State.resetAction { s with script := rest } := by
  obtain ⟨-, rfl⟩ | ⟨a, rest, -, hact⟩ := step_next_cases h
  · exact .inl rfl
  refine .inr ⟨rest, ?_⟩
  obtain ⟨d, -, hissue⟩ | ⟨-, rfl⟩ | ⟨i, b, -, -, rfl⟩ | ⟨-, rfl⟩ := act_next_cases hact
  · rw [issue_eq_answer] at hissue
    exact .inl ⟨d, (Host.Outcome.next.inj hissue).symm⟩
  · exact .inr (.inl ⟨_, rfl⟩)
  · exact .inr (.inl ⟨_, rfl⟩)
  · exact .inr (.inr rfl)

/-! ### The obligations -/

/-- Settles O2: the step is that of a reset, `step_resetMidCommand`, and the reset state holds no response. -/
theorem resetInMidCommandIsAReset : Obligations.ResetInMidCommandIsAReset :=
  fun _ _ _ h => ⟨_, step_resetMidCommand h, step_reset rfl, rfl, rfl, rfl, rfl⟩

/-- Settles O3: a read is the host's note of the response (`step_read`), and the second note has the same response. -/
theorem readReturnsTheResponseAndChangesNothing : Obligations.ReadReturnsTheResponseAndChangesNothing := by
  intro s rest h
  refine ⟨rfl, _, step_read h, rfl, ?_⟩
  rintro rest' rfl
  refine ⟨_, step_read rfl, ?_⟩
  simp [State.observe, State.response]

/-- Settles O4: the two cases of the byte-wise read. -/
theorem obufIsReadableExactlyBelowOlen : Obligations.ObufIsReadableExactlyBelowOlen :=
  fun _ _ _ h => ⟨step_readObuf_of_lt h, step_readObuf_of_ge h⟩

/-- Settles O5: the step's first case. -/
theorem blockWaitsWhenTheHostIsDone : Obligations.BlockWaitsWhenTheHostIsDone :=
  fun _ => step_of_empty

/-- Only a read of OBUF at or beyond OLEN is outside the host's contract (R171). -/
theorem State.allows_eq_false_iff (s : State) (a : HostAction) :
    s.allows a = false ↔ ∃ i, a = .readObuf i ∧ s.olen ≤ i := by
  cases a with
  | readObuf i => simp [State.allows, -State.olen_eq]
  | issue | read | reset | resetMidCommand => simp [State.allows]

/-- Settles O27: the step is refused just at the action that the contract excludes (`step_of_cons`). -/
theorem stepGoesOnExactlyWithinTheContract : Obligations.StepGoesOnExactlyWithinTheContract := by
  intro s
  cases hscript : s.script with
  | nil =>
    have hkeeps : s.hostKeepsContract = true := by rw [State.hostKeepsContract, hscript]
    exact ⟨fun _ => ⟨s, step_of_empty hscript⟩, fun hbreaks => by simp [hkeeps] at hbreaks⟩
  | cons a rest =>
    have hallows : s.hostKeepsContract = s.allows a := by rw [State.hostKeepsContract, hscript]
    rw [hallows]
    refine ⟨fun hkeeps => ?_, fun hbreaks => ?_⟩
    · obtain ⟨t, ht, -⟩ | ⟨i, rfl, hi, -⟩ := step_of_cons hscript
      · exact ⟨t, ht⟩
      · simp [(s.allows_eq_false_iff _).mpr ⟨i, rfl, hi⟩] at hkeeps
    · obtain ⟨i, rfl, hi⟩ := (s.allows_eq_false_iff a).mp hbreaks
      exact ⟨i, rest, rfl, hi, step_readObuf_of_ge hscript hi⟩

/-- Settles O28: none of the things a step can do writes the configuration. -/
theorem noStepChangesTheConfiguration : Obligations.NoStepChangesTheConfiguration := by
  intro s t h
  obtain rfl | ⟨rest, ⟨d, rfl⟩ | ⟨o, rfl⟩ | rfl⟩ := step_next_answer_cases h
  · rfl
  · exact State.answer_config _ _
  · rfl
  · rfl

end Sys2Proof.Machine
end

section
/-! PROOFS. The block between commands is consistent (spec/10_state.md R20, R22, R27 to R30, R36). -/
namespace Sys2Proof.Machine

/-! ### Answers within the bounds of the configuration -/

/-- What `State.Consistent` asks of an answer: its output is within OUT_MAX (R20), a plain output is a frame or a
request (R29), and an output with a checksum is a message that verifies and holds it in bytes 2 and 3 (R28, R133). -/
def Answer.Sound (cfg : Config) : Answer → Prop
  | .fail _ => True
  | .plain out => 14 ≤ out.length ∧ out.length ≤ cfg.outMax
  | .withChecksum out c _ => out.length ≤ cfg.outMax ∧
      (out = [] ∨ 8 ≤ out.length ∧ checksum out = 0x0000 ∧ memRead16 out 2 = c)

theorem answerOf_sound {cfg : Config} {i : Instr} (h : i.wellFormed cfg = true) : (answerOf cfg i).Sound cfg := by
  cases i with
  | csum data => exact ⟨Nat.zero_le _, .inl rfl⟩
  | eth dmac smac name payload =>
    have hfits : payload.length ≤ cfg.payloadMax := by simpa [Instr.wellFormed] using h
    simp only [answerOf, Answer.Sound, Config.outMax, Config.preLen, List.length_append, Mac.bytes_length, be16_length]
    omega
  | arpreq lmac lip tip =>
    exact ⟨(by decide : 14 ≤ 28), le_max_right _ 28⟩
  | icmpreq id seqno payload =>
    have hfits : payload.length ≤ cfg.payloadMax := by simpa [Instr.wellFormed] using h
    have hlen : (overwrite (echoMessage id seqno payload) 2 (be16 (checksum (echoMessage id seqno payload)))).length =
        8 + payload.length := by rw [overwrite_length, echoMessage_length]
    refine ⟨?_, .inr ⟨?_, checksum_filled_echoMessage id seqno payload, u16_be16 _⟩⟩
    · rw [hlen, Config.outMax]; omega
    · rw [hlen]; omega

theorem answerTo_sound (cfg : Config) (d : List Byte) : (answerTo cfg d).Sound cfg := by
  cases h : decode cfg d with
  | ok i => rw [answerTo_of_decode h]; exact answerOf_sound (wellFormed_of_decode h)
  | error e => rw [answerTo_of_error h]; trivial

/-! ### What makes a state consistent -/

/-- A sound answer leaves a consistent state, from whatever state it came. -/
theorem State.consistent_answer {s : State} {a : Answer} (h : a.Sound s.config) : (s.answer a).Consistent where
  idle := ⟨s.answer_seq a, s.answer_dbuf a⟩
  status_legal := by
    rw [State.answer_status]
    exact List.mem_cons_of_mem _ a.status_mem
  olen_bounded := by
    rw [State.answer_config]
    cases a with
    | fail e => exact Nat.zero_le _
    | plain out => exact h.2
    | withChecksum out c odd => exact h.1
  fresh hfresh := by simp at hfresh
  no_checksum hcv := by
    cases a with
    | fail | plain => rfl
    | withChecksum out c odd => simp [Answer.cv] at hcv
  checksum_is_ce hcv := by
    cases a with
    | fail | plain => simp [Answer.cv] at hcv
    | withChecksum out c odd => exact BitVec.not_not.symm
  checksum_output hcv := by
    cases a with
    | fail | plain => simp [Answer.cv] at hcv
    | withChecksum out c odd => exact h.2
  error_empty herror := by
    cases a with
    | fail e => rfl
    | plain out => exact absurd herror (by decide : statusWord true false .ok ∉ errorStatus)
    | withChecksum out c odd => exact absurd herror (by decide : statusWord true true .ok ∉ errorStatus)
  plain_output hplain := by
    cases a with
    | fail e => exact absurd hplain (by cases e <;> decide : statusWord true false (codeOfErr e) ≠ 0x20)
    | plain out => exact h.1
    | withChecksum out c odd => exact absurd hplain (by decide : statusWord true true .ok ≠ 0x20)

theorem State.consistent_resetAction (s : State) : s.resetAction.Consistent where
  idle := ⟨rfl, rfl⟩
  status_legal := List.mem_cons_self ..
  olen_bounded := Nat.zero_le _
  fresh _ := ⟨rfl, rfl, rfl, rfl⟩
  no_checksum _ := rfl
  checksum_is_ce hcv := by simp at hcv
  checksum_output _ := .inl rfl
  error_empty _ := rfl
  plain_output hplain := by simp at hplain

/-- The host's script and notes are no part of the block, so consistency does not see them. -/
theorem State.Consistent.with_host {s : State} (h : s.Consistent) (script : List HostAction)
    (hostSaw : List Observation) : State.Consistent { s with script := script, hostSaw := hostSaw } :=
  { h with }

/-! ### The obligations -/

/-- Settles O31: the reset state is the outcome of a reset action. -/
theorem resetIsConsistent : Obligations.ResetIsConsistent :=
  State.consistent_resetAction State.reset

/-- Settles O32: a step waits or lets the host read, which the block does not see, or answers or resets, which make a
consistent state out of any. -/
theorem stepKeepsTheBlockConsistent : Obligations.StepKeepsTheBlockConsistent := by
  intro s t hs h
  obtain rfl | ⟨rest, ⟨d, rfl⟩ | ⟨o, rfl⟩ | rfl⟩ := step_next_answer_cases h
  · exact hs
  · exact State.consistent_answer (answerTo_sound _ d)
  · exact hs.with_host _ _
  · exact State.consistent_resetAction _

end Sys2Proof.Machine
end

section
/-! PROOFS. Runs of host actions (spec/70_reset_and_hazards.md R171, R172). -/
namespace Sys2Proof.Machine

/-! ### Running on -/

theorem core_run_succ_of_next {M : Host.Core} {s t : M.State} (h : M.step s = .next t) (n : Nat) :
    M.run (n + 1) s = M.run n t := by
  rw [Host.Core.run, h]

theorem core_run_succ_of_refused {M : Host.Core} {s : M.State} {r : M.Refusal} (h : M.step s = .refused r) (n : Nat) :
    M.run (n + 1) s = .refused r := by
  rw [Host.Core.run, h]

/-- The run of the model's machine. -/
abbrev run (n : Nat) (s : State) : Host.Outcome State Fault Refusal := Sys2Proof.core.run n s

theorem run_succ_of_next {s t : State} (h : step s = .next t) (n : Nat) : run (n + 1) s = run n t :=
  core_run_succ_of_next (M := Sys2Proof.core) h n

theorem run_succ_of_refused {s : State} {r : Refusal} (h : step s = .refused r) (n : Nat) :
    run (n + 1) s = .refused r :=
  core_run_succ_of_refused (M := Sys2Proof.core) h n

/-- A run is refused at a byte-wise read, one of `actions`, at or beyond OLEN (R171). -/
def ReadsTooFar (actions : List HostAction) (outcome : Host.Outcome State Fault Refusal) : Prop :=
  ∃ i olen : Nat, .readObuf i ∈ actions ∧ olen ≤ i ∧ outcome = .refused (.obufBeyondOlen i olen)

theorem ReadsTooFar.mono {actions more : List HostAction} {outcome : Host.Outcome State Fault Refusal}
    (h : ReadsTooFar actions outcome) (hsub : actions ⊆ more) : ReadsTooFar more outcome := by
  obtain ⟨i, olen, hmem, hle, hrefused⟩ := h
  exact ⟨i, olen, hsub hmem, hle, hrefused⟩

/-- What holds at first and is kept by each of the actions that are run holds when they are done, unless the run is
refused at a read among them; and the run then goes on from there. -/
theorem run_actions {P : State → Prop} {actions rest : List HostAction}
    (hkeeps : ∀ a ∈ actions, ∀ (s t : State) (rest : List HostAction), s.script = a :: rest → P s →
      step s = .next t → P t)
    {s : State} (hscript : s.script = actions ++ rest) (hs : P s) (n : Nat) :
    (∃ t : State, t.script = rest ∧ P t ∧ run (actions.length + n) s = run n t) ∨
      ReadsTooFar actions (run (actions.length + n) s) := by
  induction actions generalizing s with
  | nil => exact .inl ⟨s, hscript, hs, by rw [List.length_nil, Nat.zero_add]⟩
  | cons a actions ih =>
    rw [List.length_cons, Nat.add_right_comm]
    obtain ⟨t, ht, htscript⟩ | ⟨i, rfl, hi, hrefused⟩ := step_of_cons hscript
    · have hPt : P t := hkeeps a List.mem_cons_self s t _ hscript hs ht
      rw [run_succ_of_next ht]
      obtain hgoes | hfar := ih (fun b hb => hkeeps b (List.mem_cons_of_mem a hb)) htscript hPt
      · exact .inl hgoes
      · exact .inr (hfar.mono (List.subset_cons_self a actions))
    · rw [run_succ_of_refused hrefused]
      exact .inr ⟨i, s.olen, List.mem_cons_self, hi, rfl⟩

/-- Reading changes nothing that is read (R50). -/
theorem response_of_step_read {s t : State} {a : HostAction} {rest : List HostAction} (hscript : s.script = a :: rest)
    (hread : a = .read ∨ ∃ i, a = .readObuf i) (h : step s = .next t) : t.response = s.response := by
  obtain rfl | ⟨i, rfl⟩ := hread
  · rw [step_read hscript] at h
    cases h; rfl
  · obtain hlt | hge := Nat.lt_or_ge i s.olen
    · rw [step_readObuf_of_lt hscript hlt] at h
      cases h; rfl
    · rw [step_readObuf_of_ge hscript hge] at h
      cases h

/-- A run up to an action and the reads after it ends with the response of the state the action leads to, when that is
the same response `r` from every state of the same configuration. -/
theorem run_ends_with {s : State} {before after : List HostAction} {last : HostAction} {r : Response}
    (hscript : s.script = before ++ last :: after) (hreads : ∀ a ∈ after, a = .read ∨ ∃ i, a = .readObuf i)
    (hlast : ∀ t : State, t.config = s.config → t.script = last :: after →
      ∃ u : State, step t = .next u ∧ u.script = after ∧ u.response = r) :
    (∃ t : State, run (before.length + 1 + after.length) s = .next t ∧ t.response = r) ∨
      ReadsTooFar (before ++ after) (run (before.length + 1 + after.length) s) := by
  rw [Nat.add_assoc]
  obtain ⟨t, htscript, htconfig, hrun⟩ | hfar := run_actions (P := fun t => t.config = s.config)
    (fun _ _ t u _ _ ht hu => (noStepChangesTheConfiguration t u hu).trans ht) hscript rfl (1 + after.length)
  · obtain ⟨u, hu, huscript, huresponse⟩ := hlast t htconfig htscript
    rw [hrun, Nat.add_comm, run_succ_of_next hu]
    obtain ⟨v, -, hvresponse, hrun'⟩ | hfar := run_actions (P := fun v => v.response = r)
      (fun a ha v w _ hv hr hw => (response_of_step_read hv (hreads a ha) hw).trans hr)
      (huscript.trans (List.append_nil after).symm) huresponse 0
    · exact .inl ⟨v, hrun', hvresponse⟩
    · exact .inr (hfar.mono (List.subset_append_right before after))
  · exact .inr (hfar.mono (List.subset_append_left before after))

/-- Settles O30: up to the last command the configuration stays, that command's response is the answer's own, and the
reads after it keep the response. -/
theorem runEndsInTheResponseOfItsLastCommand : Obligations.RunEndsInTheResponseOfItsLastCommand := by
  intro s before after last hscript hreads run readsTooFar
  refine ⟨?_, fun hreset => ?_⟩
  · rintro d rfl
    refine ⟨_, step_issue_eq_answer rfl, run_ends_with hscript hreads fun t htconfig htscript => ?_⟩
    refine ⟨_, step_issue_eq_answer htscript, State.answer_script _ _, ?_⟩
    rw [htconfig]
    exact State.answer_response _ _ _
  · refine run_ends_with hscript hreads fun t _ htscript => ?_
    obtain rfl | ⟨taken, rfl⟩ := hreset
    · exact ⟨_, step_reset htscript, rfl, rfl⟩
    · exact ⟨_, step_resetMidCommand htscript, rfl, rfl⟩

end Sys2Proof.Machine
end

section
/-! PROOFS. The assembler: MAC operands and VERIFY (spec/30_encoding.md R82 to R84). -/
namespace Sys2Proof.Machine

/-! ### Pairs of hexadecimal digits (R82) -/

theorem toNat_le_of_char_le {c d : Char} (h : c ≤ d) : c.toNat ≤ d.toNat := UInt32.le_iff_toNat_le.mp h

theorem hexDigit_lt {c : Char} {v : Nat} (h : hexDigit c = some v) : v < 16 := by
  unfold hexDigit at h
  split_ifs at h with hdec hlower hupper <;> cases h
  · have hle : c.toNat ≤ 57 := toNat_le_of_char_le hdec.2
    have hzero : '0'.toNat = 48 := rfl
    omega
  · have hle : c.toNat ≤ 102 := toNat_le_of_char_le hlower.2
    have ha : 'a'.toNat = 97 := rfl
    omega
  · have hle : c.toNat ≤ 70 := toNat_le_of_char_le hupper.2
    have ha : 'A'.toNat = 65 := rfl
    omega

/-- What the first pair and the rest of a text read as. -/
theorem hexPairs_cons_cons_eq_some_iff {h l : Char} {rest : List Char} {bs : List Byte} :
    hexPairs (h :: l :: rest) = some bs ↔ ∃ hv lv bs', hexDigit h = some hv ∧ hexDigit l = some lv ∧
      hexPairs rest = some bs' ∧ BitVec.ofNat 8 (hv * 16 + lv) :: bs' = bs := by
  rw [hexPairs]
  split
  next hv lv bs' hh hl hrest => simp [hh, hl, hrest]
  next hnone =>
    simp only [reduceCtorEq, false_iff]
    rintro ⟨hv, lv, bs', hh, hl, hrest, -⟩
    exact hnone hv lv bs' hh hl hrest

/-- A text reads as pairs exactly when it has an even number of characters, all of them digits. -/
theorem hexPairs_isSome_iff (cs : List Char) :
    (hexPairs cs).isSome = true ↔ cs.length % 2 = 0 ∧ ∀ c ∈ cs, (hexDigit c).isSome = true := by
  induction cs using List.twoStepInduction with
  | nil => simp [hexPairs]
  | singleton c => simp [hexPairs]
  | cons_cons h l rest ih _ =>
    have hpair : (hexPairs (h :: l :: rest)).isSome = true ↔
        (hexDigit h).isSome = true ∧ (hexDigit l).isSome = true ∧ (hexPairs rest).isSome = true := by
      simp only [Option.isSome_iff_exists, hexPairs_cons_cons_eq_some_iff]
      constructor
      · rintro ⟨-, hv, lv, bs', hh, hl, hrest, -⟩
        exact ⟨⟨hv, hh⟩, ⟨lv, hl⟩, bs', hrest⟩
      · rintro ⟨⟨hv, hh⟩, ⟨lv, hl⟩, bs', hrest⟩
        exact ⟨_, hv, lv, bs', hh, hl, hrest, rfl⟩
    rw [hpair, ih]
    simp only [List.length_cons, List.mem_cons, forall_eq_or_imp, Nat.add_mod_right, Nat.add_assoc]
    tauto

/-- Two characters make a byte. -/
theorem length_of_hexPairs {cs : List Char} {bs : List Byte} (h : hexPairs cs = some bs) :
    cs.length = 2 * bs.length := by
  induction cs using List.twoStepInduction generalizing bs with
  | nil => cases h; rfl
  | singleton c => cases h
  | cons_cons c c' rest ih _ =>
    obtain ⟨hv, lv, bs', -, -, hrest, rfl⟩ := hexPairs_cons_cons_eq_some_iff.mp h
    have := ih hrest
    simp only [List.length_cons]
    omega

/-- Byte i is the value of the digits 2i and 2i + 1, high digit first. -/
theorem hexPairs_getElem? {cs : List Char} {bs : List Byte} (h : hexPairs cs = some bs) {i : Nat} {b : Byte}
    (hb : bs[i]? = some b) : ∃ (c c' : Char) (hv lv : Nat), cs[2 * i]? = some c ∧ cs[2 * i + 1]? = some c' ∧
      hexDigit c = some hv ∧ hexDigit c' = some lv ∧ b.toNat = hv * 16 + lv := by
  induction cs using List.twoStepInduction generalizing bs i with
  | nil => cases h; simp at hb
  | singleton c => cases h
  | cons_cons c c' rest ih _ =>
    obtain ⟨hv, lv, bs', hc, hc', hrest, rfl⟩ := hexPairs_cons_cons_eq_some_iff.mp h
    cases i with
    | zero =>
      cases hb
      have := hexDigit_lt hc
      have := hexDigit_lt hc'
      refine ⟨c, c', hv, lv, rfl, rfl, hc, hc', ?_⟩
      rw [BitVec.toNat_ofNat]
      omega
    | succ i => exact ih hrest hb

/-! ### MAC operands (R82) -/

theorem exists_mac_of_length : ∀ {bs : List Byte}, bs.length = 6 → ∃ m : Mac, m.bytes = bs
  | [b0, b1, b2, b3, b4, b5], _ => ⟨⟨b0, b1, b2, b3, b4, b5⟩, rfl⟩

/-- A text is a MAC operand when its pairs are the six bytes. -/
theorem macOf_eq_some_iff {cs : List Char} {m : Mac} : macOf cs = some m ↔ hexPairs cs = some m.bytes := by
  refine ⟨fun h => ?_, fun h => by rw [macOf, h]; rfl⟩
  unfold macOf at h
  split at h
  next hpairs => cases h; exact hpairs
  next => cases h

theorem macOf_isSome_iff (cs : List Char) :
    (macOf cs).isSome = true ↔ cs.length = 12 ∧ ∀ c ∈ cs, (hexDigit c).isSome = true := by
  constructor
  · intro h
    obtain ⟨m, hm⟩ := Option.isSome_iff_exists.mp h
    have hpairs := macOf_eq_some_iff.mp hm
    obtain ⟨-, hdigits⟩ := (hexPairs_isSome_iff cs).mp (Option.isSome_of_mem hpairs)
    exact ⟨length_of_hexPairs hpairs, hdigits⟩
  · rintro ⟨hlen, hdigits⟩
    obtain ⟨bs, hbs⟩ := Option.isSome_iff_exists.mp ((hexPairs_isSome_iff cs).mpr ⟨by omega, hdigits⟩)
    have hsix : bs.length = 6 := by have := length_of_hexPairs hbs; omega
    obtain ⟨m, rfl⟩ := exists_mac_of_length hsix
    exact Option.isSome_of_mem (macOf_eq_some_iff.mpr hbs)

/-- Settles O50: a MAC operand is a text whose hexadecimal pairs are six bytes (`macOf_eq_some_iff`). -/
theorem macOperandIsTwelveHexDigits : Obligations.MacOperandIsTwelveHexDigits :=
  fun cs => ⟨macOf_isSome_iff cs, fun _ hm _ _ hb => hexPairs_getElem? (macOf_eq_some_iff.mp hm) hb⟩

/-! ### VERIFY (R83, R84) -/

theorem runLine_of_run {s t : State} {line : List Char} {l : AsmLine} (hline : assemble s.obuf line = .ok l)
    (hrun : Sys2Proof.core.run l.actions.length { s with script := l.actions ++ s.script } = .next t) :
    runLine s line = .done t (l.passes t.response) := by
  unfold runLine
  rw [hline]
  simp only [hrun]

/-- The line is the CSUM descriptor of the bytes the host reads from OBUF, whatever they are. -/
theorem assemble_verify_obuf (obuf : List Byte) :
    assemble obuf "VERIFY data=OBUF".toList = .ok (.verify (0x01 :: obuf)) := by
  rfl

/-- A CSUM and a read, from a state with nothing else to do: the response of `step_csum`, which the read leaves. -/
theorem run_csum_read {s : State} {data : List Byte} (h : s.script = [.issue (0x01 :: data), .read]) :
    ∃ t : State, run 2 s = .next t ∧ t.status = 0x30 ∧ t.result = checksum data ∧ t.obuf = [] := by
  rw [run_succ_of_next (step_csum h), run_succ_of_next (step_read rfl)]
  exact ⟨_, rfl, rfl, rfl, rfl⟩

/-- Settles O51: the line is a CSUM of OBUF and a read, whose response VERIFY tests for a zero RESULT. -/
theorem verifyPassesExactlyOnZeroChecksum : Obligations.VerifyPassesExactlyOnZeroChecksum := by
  intro s h
  have hscript : [.issue (0x01 :: s.obuf), .read] ++ s.script = [.issue (0x01 :: s.obuf), .read] := by
    rw [h, List.append_nil]
  obtain ⟨t, hrun, hstatus, hresult, hobuf⟩ := run_csum_read
    (s := { s with script := [.issue (0x01 :: s.obuf), .read] ++ s.script }) hscript
  refine ⟨t, ?_, hstatus, hresult, hobuf⟩
  rw [runLine_of_run (assemble_verify_obuf s.obuf) hrun, ← hresult]
  rfl

end Sys2Proof.Machine
end
